-- ==== Sys2Proof/Word.lean ====
section
/-! DEFINITION. The units the manual counts in: bytes, pocket masks and pocket numbers. -/

namespace Sys2Proof

/-- One byte of a host or link frame (R197). -/
abbrev Byte := BitVec 8

/-- A set of pockets, one flag for each address 0..31; bit `p` stands for pocket `p` (R197). -/
abbrev Mask := BitVec 32

/-- A pocket address 0..31 (R84, R87). -/
abbrev Pocket := Fin 32

/-- Whether pocket `p` is in the set. -/
def Mask.has (m : Mask) (p : Pocket) : Bool := m.getLsbD p.val

/-- The set with the flag of pocket `p` made `b`. -/
def Mask.put (m : Mask) (p : Pocket) (b : Bool) : Mask :=
  if b then m ||| BitVec.twoPow 32 p.val else m &&& ~~~ (BitVec.twoPow 32 p.val)

/-- Every pocket address in ascending order. -/
def allPockets : List Pocket := List.finRange 32

/-- The pockets of a set in ascending order. -/
def Mask.pockets (m : Mask) : List Pocket := allPockets.filter fun p => Mask.has m p

/-- A vector with entry `p` replaced. -/
def upd {α : Type} {n : Nat} (v : Vector α n) (p : Fin n) (x : α) : Vector α n := v.set p.val x p.isLt

/-- `x` moved to the nearer end of `lo..hi` when it lies outside. -/
def clampTo (lo hi x : Nat) : Nat := if x < lo then lo else if hi < x then hi else x

end Sys2Proof
end

