-- ==== Sys2Proof/Syntax.lean ====
section
/-! DEFINITION. The commands the part takes: one constructor of `Instr` for each row of spec/opcode_table.json, with the operands the spec's rules give it. -/

namespace Sys2Proof

/-- Store geometry (R32). -/
inductive Geometry where
  | standard
  | compact
  deriving DecidableEq, Repr

/-- The condition of a word that is not clean (R33). -/
inductive Flaw where
  | correctable
  | uncorrectable
  deriving DecidableEq, Repr

/-- The words that have failed by the time a store event reads them (log entry 2): `pre` before the event's own
reads and writes, `post` between a write of the event and its read-back. -/
structure Findings where
  pre : List (Nat × Flaw)
  post : List (Nat × Flaw)
  deriving DecidableEq, Repr

/-- A crease plan: its own of a record, or the default of the settings (R2, R69). -/
structure CreasePlan where
  tumbles : Nat
  interval : Nat
  length : Nat
  window : Nat
  deriving DecidableEq, Repr

/-- A NOT_READY reason of a pocket board (R85). -/
inductive NotReady where
  | doorOpen
  | lockout
  | busy
  deriving DecidableEq, Repr

/-- A NOT_READY reason that is retried (R99). -/
inductive RetryReason where
  | lockout
  | busy
  deriving DecidableEq, Repr

/-- A good reply to a posted command (R85). -/
inductive PostedAnswer where
  | ack
  | notReady (why : NotReady)
  deriving DecidableEq, Repr

/-- What a STATUS reply reports (R85, section 11.4); exhaust 255 is "sensor absent". -/
structure StatusReport where
  doorOpen : Bool
  latch : Bool
  motorRunning : Bool
  heatOn : Bool
  motorFault : Bool
  heatFault : Bool
  exhaust : Nat
  deriving DecidableEq, Repr

/-- A reply as STATUS_ARRIVAL gives it: a good STATUS reply by its fields, or the bytes received while the exchange with
the pocket is under way, on which the tests of R84 are made. The table has no row for received bytes. DESIGN CHOICE: log
entry 5. -/
inductive StatusReply where
  | report (r : StatusReport)
  | bytes (bs : List Byte)
  deriving DecidableEq, Repr

/-- A supply line whose change breaks or begins settling (R137). -/
inductive SupplyLine where
  | mainsOk
  | pfw
  deriving DecidableEq, Repr

/-- A supply input that becomes good again: a supply line (R137), or VBK at its retention level (R151, log entry 28). -/
inductive SupplyReturn where
  | line (line : SupplyLine)
  | vbk
  deriving DecidableEq, Repr

/-- Levels of the supply inputs at power-on (section 7.1); `vbkGood`: VBK at or above its retention level. -/
structure SupplyLevels where
  mainsOk : Bool
  pfw : Bool
  vbkGood : Bool
  deriving DecidableEq, Repr

/-- The payload of OPEN (R24, section 11.2), as the host gives it and before it is clamped. -/
structure OpenArgs where
  level : Nat
  options : Byte
  heat : Nat
  cool : Nat
  plan : Option CreasePlan
  deriving DecidableEq, Repr

/-- A host request: code, pocket and payload, read field by field (R181, R197, section 11.2). -/
inductive HostReq where
  | openRecord (pocket : Nat) (args : OpenArgs)
  | start (pocket : Nat)
  | extend (pocket : Nat) (seconds : Nat)
  | endHeat (pocket : Nat)
  | setHeat (pocket : Nat) (level : Nat)
  | setOptions (pocket : Nat) (set clear : Byte)
  | retire (pocket : Nat)
  | lookup (pocket : Nat)
  | hold (pocket : Nat)
  | release (pocket : Nat)
  | holdMask (set clear : Mask)
  | clearPocket (pocket : Nat)
  | remap (pocket : Nat)
  | status
  | events
  | storeReport
  | clearLatch
  | enterCommission
  | format (geometry count : Nat)
  | setSetting (item value : Nat)
  | getSetting (item : Nat)
  | leaveCommission
  deriving DecidableEq, Repr

/-- The part's commands. The first 22 are complete REQUEST frames with a correct CRC and a code and length that suit
each other; `badFrame` carries the bytes received after the frame kind of any other REQUEST frame. -/
inductive Instr where
  | openRecord (pocket : Nat) (args : OpenArgs)
  | start (pocket : Nat)
  | extend (pocket : Nat) (seconds : Nat)
  | endHeat (pocket : Nat)
  | setHeat (pocket : Nat) (level : Nat)
  | setOptions (pocket : Nat) (set clear : Byte)
  | retire (pocket : Nat)
  | lookup (pocket : Nat)
  | hold (pocket : Nat)
  | release (pocket : Nat)
  | holdMask (set clear : Mask)
  | clearPocket (pocket : Nat)
  | remap (pocket : Nat)
  | status
  | events
  | storeReport
  | clearLatch
  | enterCommission
  | format (geometry count : Nat)
  | setSetting (item value : Nat)
  | getSetting (item : Nat)
  | leaveCommission
  | badFrame (bytes : List Byte)
  | droppedRequest
  | fetch (shifted : Nat)
  | storeOperationServe
  | translationReadEnd (found : Findings)
  | staticReadEnd (found : Findings)
  | staticWriteEnd (found : Findings)
  | checkpointEnd (found : Findings)
  | moveEnd (found : Findings)
  | openOperationEnd (found : Findings)
  | retireMapWriteEnd (found : Findings)
  | retireOperationEnd (found : Findings)
  | remapWriteEnd (found : Findings)
  | markWriteEnd
  | settingsWriteEnd
  | formatEnd (found : Findings)
  | plannerFrameReadEnd (found : Findings)
  | startScanEnd (found : Findings)
  | patrolRead (found : Findings)
  | clockStep
  | heatExit (pocket : Pocket)
  | coolExit (pocket : Pocket)
  | creaseWindowEnd (pocket : Pocket)
  | tumbleEnd (pocket : Pocket)
  | tumbleDue (pocket : Pocket)
  | checkpointTimerExpiry (pocket : Pocket)
  | linkFrameSend
  | replyWindowExpiry
  | statusArrival (pocket : Pocket) (report : StatusReply)
  | runAck (pocket : Pocket)
  | heatOnAck (pocket : Pocket)
  | notReadyRetry (pocket : Pocket) (why : RetryReason)
  | notReadyDoorOpen (pocket : Pocket)
  | postedReply (pocket : Pocket) (answer : PostedAnswer)
  | replyDiscarded
  | retryTimeReached (pocket : Pocket)
  | pollTurn (pocket : Pocket)
  | offlinePollTimerExpiry (pocket : Pocket)
  | startWindowEnd (pocket : Pocket)
  | grantTimeout (pocket : Pocket)
  | startGapEnd
  | sagPulse
  | sagWindowExpiry
  | throttleTimerExpiry
  | powerFailWarning
  | saveWriteEnd (found : Findings)
  | supplyBreak (line : SupplyLine)
  | settleTimeReached
  | outageTimerCount
  | vbkRetentionLoss
  | powerOn (levels : SupplyLevels)
  | resetPin
  | coreSupplyCollapse
  | firstPollWindowEnd (pocket : Pocket)
  | firstPollRepoll (pocket : Pocket)
  | mapRepairEnd (found : Findings)
  | mainsOkReturn (input : SupplyReturn)
  deriving DecidableEq, Repr

end Sys2Proof
end

