-- ==== Sys2Proof/Decode.lean ====
section
/-! DEFINITION. The command that a word of the opcode table's bits spells. No row of the table gives bits, since the
commands reach the part as frames, replies, events and pin changes: no word spells a command. The bytes of a host
request are read by `readFrame` of Machine/Operands.lean. -/

namespace Sys2Proof

/-- No row of the table gives bits, so no word is a command. -/
def decodeTableWord (_nbits _w : Nat) : Option Instr := none

end Sys2Proof
end

