-- ==== Sys2Proof/Config.lean ====
section
/-! DEFINITION. The fixed figures of section 11.6 and of the rules that give them. The spec leaves no value open after which the part goes on, so there is no free value. -/

namespace Sys2Proof.Config

/-- Words of the record store (R32). -/
def storeWords : Nat := 430
/-- Milliseconds of a reply window (R84). -/
def replyWindowMs : Nat := 4
/-- Silent sends in a row that end an entry (R89). -/
def sendsBeforeOffline : Nat := 4
/-- Milliseconds before a refused command may be sent again (R99). -/
def retryWaitMs : Nat := 250
/-- Milliseconds between probes of an OFFLINE pocket (R105). -/
def offlineProbeMs : Nat := 5000
/-- Entries the link queue holds (R92). -/
def linkQueueMax : Nat := 32
/-- Entries at which a poll turn is skipped (R104). -/
def pollThreshold : Nat := 24
/-- Entries the link queue holds for one pocket (R92). -/
def perPocketMax : Nat := 3
/-- Milliseconds of a first-poll window (R156). -/
def firstPollMs : Nat := 3000
/-- Milliseconds after which a first poll is asked again (R156). -/
def repollMs : Nat := 250
/-- Milliseconds between patrol reads (R47). -/
def patrolMs : Nat := 25
/-- Largest value of the outage timer in seconds (R152). -/
def outageMax : Nat := 86400
/-- Largest uptime in seconds (R138). -/
def uptimeMax : Nat := 4294967295
/-- Largest correctable count (R50). -/
def correctableMax : Nat := 65535
/-- Largest heat remaining in seconds (R24, R26, R163). -/
def heatMax : Nat := 7200
/-- Largest cool length in seconds (R24). -/
def coolMax : Nat := 900
/-- Largest generation (R2). -/
def generationMax : Nat := 65535
/-- Largest kept sum of reheat allowances (R163). -/
def extraMax : Nat := 3600
/-- Link address of a broadcast (R84). -/
def broadcastAddress : Nat := 63

end Sys2Proof.Config
end

