-- ==== Sys2Proof/Machine/Settings.lean ====
section
/-! DEFINITION. The settings of section 10.3: their items, ranges, defaults and words. -/

namespace Sys2Proof.Machine

/-- The 95 numbered items, each at its own number; number 0 and every number past 95 name no item. -/
abbrev Settings := Vector Nat 96

/-- Whether a number names an item (section 10.3). -/
def itemExists (i : Nat) : Bool := 1 ≤ i && i ≤ 95

/-- The lowest value of an item's range. -/
def itemLow (i : Nat) : Nat :=
  match i with
  | 1 => 10 | 3 => 1 | 4 => 250 | 5 => 1 | 6 => 1 | 7 => 1 | 9 => 5 | 10 => 10 | 11 => 1 | 12 => 1 | 13 => 5
  | 15 => 30 | 16 => 5 | 17 => 60 | 19 => 60 | 20 => 45 | 21 => 2 | 22 => 60 | 25 => 40 | 26 => 40 | 27 => 40
  | _ => 0

/-- The highest value of an item's range; supply phases are A = 0, B = 1, C = 2 (R197). -/
def itemHigh (i : Nat) : Nat :=
  match i with
  | 1 => 300 | 2 => 1 | 3 => 60 | 4 => 2000 | 5 => 30 | 6 => 32 | 7 => 4 | 8 => 50 | 9 => 50 | 10 => 100 | 11 => 60
  | 12 => 15 | 13 => 600 | 14 => 60 | 15 => 600 | 16 => 60 | 17 => 7200 | 18 => 50 | 19 => 7200 | 20 => 90
  | 21 => 20 | 22 => 900 | 23 => 30 | 24 => 900 | 25 => 120 | 26 => 120 | 27 => 120 | 28 => 63 | 29 => 63
  | 30 => 63 | 31 => 4294967295
  | i => if i < 64 then 2 else 15

/-- The default of an item; tenths are counts of tenths (R197). -/
def itemDefault (i : Nat) : Nat :=
  match i with
  | 0 => 0
  | 1 => 30 | 2 => 1 | 3 => 20 | 4 => 1000 | 5 => 3 | 6 => 12 | 7 => 2 | 8 => 5 | 9 => 20 | 10 => 30 | 11 => 10
  | 12 => 3 | 13 => 30 | 14 => 12 | 15 => 120 | 16 => 15 | 17 => 1800 | 18 => 25 | 19 => 1500 | 20 => 60 | 21 => 8
  | 22 => 180 | 23 => 5 | 24 => 300 | 25 => 55 | 26 => 70 | 27 => 85 | 28 => 24 | 29 => 24 | 30 => 24
  | 31 => 4294967295
  | i => if i < 64 then (i - 32) % 3 else 6

/-- The settings word 1..12 that holds an item. -/
def itemWord (i : Nat) : Nat :=
  if i ≤ 6 then 1 else if i ≤ 13 then 2 else if i ≤ 17 then 3 else if i ≤ 22 then 4 else if i ≤ 27 then 5
  else if i ≤ 31 then 6 else if i ≤ 47 then 7 else if i ≤ 63 then 8 else if i ≤ 71 then 9 else if i ≤ 79 then 10
  else if i ≤ 87 then 11 else 12

/-- Whether a value lies in an item's range (R190, R194). -/
def itemInRange (i v : Nat) : Bool := itemLow i ≤ v && v ≤ itemHigh i

/-- Every item at its default (R193). -/
def Settings.default : Settings := Vector.ofFn fun i => itemDefault i.val

/-- The value of item `i`; 0 for a number that names none. -/
def Settings.item (held : Settings) (i : Nat) : Nat := if h : i < 96 then held[i] else 0

/-- The settings with item `i` made `v`. -/
def Settings.withItem (c : Settings) (i v : Nat) : Settings := if h : i < 96 then c.set i v h else c

/-- The items of word `w` taken from `src`, the others from `held`. -/
def Settings.withWord (held src : Settings) (w : Nat) : Settings :=
  Vector.ofFn fun i => if itemWord i.val = w then src[i] else held[i]

/-- The item numbers in ascending order. -/
def allItems : List Nat := (List.range 95).map (· + 1)

end Sys2Proof.Machine
end

