-- ==== Sys2Proof/Machine/State.lean ====
section
/-! DEFINITION. The state of the part as plain data, its outcomes, and the state after reset. -/

namespace Sys2Proof.Machine

/-! ### Enumerations (section 11.5) -/

/-- Part state (R139). -/
inductive PartState where
  | start | commission | plan | active | save | dark
  deriving DecidableEq, Repr

/-- Link state of a pocket (R87). -/
inductive LinkState where
  | absent | unknown | online | offline | fault
  deriving DecidableEq, Repr

/-- Phase of a load (section 1.2). -/
inductive Phase where
  | staged | heat | cool | crease | done
  deriving DecidableEq, Repr

/-- Hold cause (section 1.3). -/
inductive HoldCause where
  | none | door | link | heatFault | resumeAsk | damaged
  deriving DecidableEq, Repr

/-- Interrupted phase of a COOL_FIRST record. -/
inductive Interrupted where
  | heat | cool
  deriving DecidableEq, Repr

/-- Resume status. -/
inductive ResumeStatus where
  | none | pending | running
  deriving DecidableEq, Repr

/-- Resume class. -/
inductive ResumeClass where
  | coolFirst | reheat | creaseOn
  deriving DecidableEq, Repr

/-- Last fault of a record, and fault cause of a pocket (SILENT is never a fault cause). -/
inductive FaultCause where
  | retryExhausted | silent | motorFault | heatFault
  deriving DecidableEq, Repr

/-- Result code (section 9.3). -/
inductive Result where
  | ok | okClamped | notReady | powerFail | state | range | noRecord | exists | noFrame | mapFault | storeFault
  | badFrame | unknown
  deriving DecidableEq, Repr

/-- Host port state (R178). -/
inductive PortState where
  | idle | busy | ready
  deriving DecidableEq, Repr

/-- The three supply phases. -/
inductive SupplyPhase where
  | a | b | c
  deriving DecidableEq, Repr

/-! ### Records and store words -/

/-- The options of a record (R2). -/
structure Options where
  ask : Bool
  noCrease : Bool
  fixedTime : Bool
  deriving DecidableEq, Repr

/-- Crease progress (section 4.2). -/
structure CreaseProgress where
  remaining : Nat
  nextDue : Nat
  window : Nat
  tumbling : Bool
  deriving DecidableEq, Repr

/-- Plan stamp: outage sequence and base (section 1.1). -/
structure PlanStamp where
  seq : Nat
  base : Nat
  deriving DecidableEq, Repr

/-- The fast fields of a record (section 1.1). -/
structure Fast where
  phase : Phase
  hold : HoldCause
  interrupted : Option Interrupted
  heat : Nat
  cool : Nat
  temp : Nat
  progress : Option CreaseProgress
  status : ResumeStatus
  cls : Option ResumeClass
  level : Option Nat
  outage : Nat
  extra : Nat
  lastFault : Option FaultCause
  deriving DecidableEq, Repr

/-- A set of fast fields, one bit for each in the order of `Fast` (R59). -/
abbrev FieldSet := BitVec 13

/-- Frame state (R35). -/
inductive FrameState where
  | free | live | quarantined
  deriving DecidableEq, Repr

/-- Frame header word (R35). -/
structure Header where
  state : FrameState
  writeOpen : Bool
  saved : Bool
  pocket : Nat
  gen : Nat
  stamp : Nat
  deriving DecidableEq, Repr

/-- A frame as the fields of its words (section 2.2): the header, the static fields, the fast fields and the plan
stamp. Which word holds which field is `roleOf` of Machine/Store.lean. -/
structure Frame where
  header : Header
  level : Nat
  options : Options
  coolLength : Nat
  plan : Option CreasePlan
  fast : Fast
  stamp : Option PlanStamp
  deriving DecidableEq, Repr

/-- Map entry (R37). -/
structure MapEntry where
  valid : Bool
  frame : Nat
  gen : Nat
  deriving DecidableEq, Repr

/-- Format word (R34). -/
structure FormatWord where
  valid : Bool
  geometry : Geometry
  count : Nat
  deriving DecidableEq, Repr

/-- Outage mark (R34, R143). -/
structure OutageMark where
  valid : Bool
  seq : Nat
  uptime : Nat
  deriving DecidableEq, Repr

/-- The nonvolatile array of 430 words (R32): the fields of its words, and in `flaws` the words that are not clean,
in rising order. A word that is not listed reads clean. DESIGN CHOICE: log entry 1. -/
structure Store where
  format : FormatWord
  settings : Settings
  mark : OutageMark
  map : Vector MapEntry 32
  frames : Vector Frame 48
  flaws : List (Nat × Flaw)
  deriving DecidableEq, Repr

/-! ### Contexts and store operations -/

/-- The values last written into a frame's header and plan-stamp word (R54). -/
structure Shadow where
  stamp : Nat
  plan : Option PlanStamp
  saved : Bool
  deriving DecidableEq, Repr

/-- Checkpoint state of a context (R54). -/
inductive CheckpointState where
  | idle | queued | writing
  deriving DecidableEq, Repr

/-- A working context (section 3.1), with the volatile items the cycle engine and the crease scheduler keep beside it:
`tumbleLeft` (R70), `awaitCool` (the cool length is still to be read, R7), `tumbleGranted` (a start was granted and
its tumble has not begun, R73), the interval and length of the effective plan (R69), `heatLevel` (the level last read
for the desired state, R20 and R22), `since` (the fast fields that have changed since a store operation last took their
values, R59), `stampPending` (the plan stamp of a commit is still to be written, R62) and `commitMove` (the commit is owed
as a move, R53). -/
structure Context where
  gen : Nat
  frame : Nat
  fast : Fast
  dirty : FieldSet
  since : FieldSet
  shadow : Shadow
  timer : Nat
  checkpoint : CheckpointState
  pinned : Bool
  tumbleLeft : Option Nat
  awaitCool : Bool
  tumbleGranted : Bool
  interval : Nat
  length : Nat
  heatLevel : Option Nat
  stampPending : Bool
  commitMove : Bool
  deriving DecidableEq, Repr

/-- What a static read of the cycle engine is for (R22). -/
inductive ReadPurpose where
  | heatExit | coolExit | heatLevel
  deriving DecidableEq, Repr

/-- The one static field a static write carries (R65). -/
inductive StaticChange where
  | level (value : Nat)
  | options (set clear : Options)
  deriving DecidableEq, Repr

/-- The static fields of a record. -/
structure Statics where
  level : Nat
  options : Options
  coolLength : Nat
  plan : Option CreasePlan
  deriving DecidableEq, Repr

/-- The part of a record image that is copied when LOOKUP is taken (R67). -/
structure LookupCopy where
  gen : Nat
  fast : Fast
  shadow : Shadow
  writeOpen : Bool
  deriving DecidableEq, Repr

/-- A store operation (section 2.4). -/
inductive StoreOp where
  | translation (req : HostReq)
  | staticRead (pocket : Pocket) (purposes : List ReadPurpose)
  | lookupRead (pocket : Pocket) (copy : LookupCopy)
  | staticWrite (pocket : Pocket) (change : StaticChange) (clamped : Bool)
  | checkpoint (pocket : Pocket)
  | saveWrite (pocket : Pocket)
  | openRecord (pocket : Pocket) (gen : Nat) (args : Statics) (heat : Nat) (clamped : Bool)
  | retire (pocket : Pocket) (frame : Nat) (pinned : Bool) (host : Bool)
  | move (pocket : Pocket) (frame : Nat) (commit : Bool)
  | mapRepair (req : HostReq) (pocket : Pocket)
  | remap (pocket : Pocket)
  | markWrite (closing : Bool)
  | settingsWrite (item : Nat)
  | format (geometry : Geometry) (count : Nat)
  | plannerRead (pocket : Pocket) (frame : Nat)
  deriving DecidableEq, Repr

/-- One access of a store operation to the array, in the order its rule gives. -/
inductive Access where
  | headerOpen
  | merge (word : Nat)
  | headerClose
  | staticMerge
  | readStatic (word : Nat)
  | moveRead (word : Nat)
  | moveReadRest
  | moveWrite (word : Nat)
  | moveHeader
  | moveMap
  | moveOldHeader
  | openWrite (word : Nat)
  | openHeader
  | openMap
  | retireMap
  | retireHeader
  | readMap
  | writeMap
  | writeMark
  | writeSettings
  | formatFirst
  | formatSettings (word : Nat)
  | formatMark
  | formatMap (pocket : Pocket)
  | formatFrame (frame : Nat)
  | formatLast
  | readFrame
  deriving DecidableEq, Repr

/-- A move in flight (R42): its two frames and what it carries over from the old one. -/
structure MoveData where
  old : Nat
  new : Nat
  statics : Statics
  stamp : Option PlanStamp
  saved : Bool
  deriving DecidableEq, Repr

/-- The store operation in progress: its accesses still to make, the dirty fields whose values it has taken (R59), the
statics it has read, the frame it has taken for an OPEN, the outcome of its map read-back or of the
map word it read, the move it has become, and the context of a record that was retired while it was being served
(R57). -/
structure Running where
  op : StoreOp
  todo : List Access
  taken : FieldSet
  statics : Statics
  target : Nat
  good : Bool
  entry : MapEntry
  move : Option MoveData
  stash : Option Context
  deriving DecidableEq, Repr

/-- Error latch state (R49). -/
inductive LatchState where
  | empty | correctable | uncorrectable
  deriving DecidableEq, Repr

/-- Area of a latched error. -/
inductive LatchArea where
  | header | map | frame
  deriving DecidableEq, Repr

/-- Source of a latched error. -/
inductive LatchSource where
  | patrol | checkpoint | read | scan
  deriving DecidableEq, Repr

/-- The error latch (R49). -/
structure ErrorLatch where
  state : LatchState
  area : LatchArea
  frame : Nat
  word : Nat
  source : LatchSource
  deriving DecidableEq, Repr

/-- The volatile state of the record store, the map, the pools and the commission items. -/
structure StoreCtl where
  format : FormatWord
  settings : Settings
  loaded : Settings
  formatBad : Bool
  wordBad : Vector Bool 13
  itemBad : Vector Bool 96
  scanning : Bool
  scanDone : Bool
  free : List Nat
  quarantine : BitVec 48
  mirror : Vector MapEntry 32
  mapFault : Mask
  queue : List StoreOp
  current : Option Running
  cursor : Nat
  patrolOwed : Bool
  patrolMs : Nat
  latch : ErrorLatch
  correctable : Nat
  deriving DecidableEq, Repr

/-! ### Pocket link -/

/-- Command kinds (R85). -/
inductive CommandKind where
  | poll | run | heatOn | stop | heatOff | safe | clearDoor
  deriving DecidableEq, Repr

/-- State of a link queue entry (R92); `waitRetry` carries the milliseconds to its retry time. -/
inductive EntryState where
  | unsent | inFlight | waitRetry (ms : Nat)
  deriving DecidableEq, Repr

/-- A link queue entry (section 5.3); the pocket is absent for a broadcast. `level` is the parameter of a HEAT_ON,
absent while the static read that gives it is awaited (R22). The class follows from the kind. -/
structure Entry where
  pocket : Option Pocket
  kind : CommandKind
  level : Option Nat
  attempts : Nat
  silent : Nat
  state : EntryState
  deriving DecidableEq, Repr

/-- The link record of a pocket address (R87), with the RUN authority of R97, the marks that end confirmation (R86),
the mark of a probe refused for a limit (R105) and that of a heat lost with its motor, whose HEAT_OFF is still to be posted
(R106). `heatBelieved` is the level the heat is believed ON at, and `lastLevel` the
level last believed, which a STATUS that finds the heat on takes (R86). -/
structure PocketLink where
  state : LinkState
  cause : Option FaultCause
  motorBelieved : Bool
  heatBelieved : Option Nat
  lastLevel : Option Nat
  stopPosted : Bool
  heatOffPosted : Bool
  startAttempts : Nat
  latchSeen : Bool
  exhaust : Option Nat
  offlineMs : Option Nat
  safeOwed : Bool
  probeOwed : Bool
  runAuthority : Bool
  heatLost : Bool
  deriving DecidableEq, Repr

/-- The pocket link controller. -/
structure LinkCtl where
  pockets : Vector PocketLink 32
  queue : List Entry
  windowMs : Nat
  roundMs : Nat
  sent : List Byte
  deriving DecidableEq, Repr

/-! ### Arbiter, heat, throttle -/

/-- Stage of a start slot (section 6.3). -/
inductive SlotStage where
  | awaitAck | starting
  deriving DecidableEq, Repr

/-- A start slot record (section 6.3); its timer in milliseconds. -/
structure Slot where
  pocket : Pocket
  stage : SlotStage
  level : Nat
  timerMs : Nat
  carried : Option Nat
  doorRefused : Bool
  deriving DecidableEq, Repr

/-- The start arbiter (section 6.1); `sinceGrant` is the last grant time as the milliseconds since it. -/
structure Arbiter where
  requests : Vector (Option Nat) 32
  mask : Mask
  slots : List Slot
  sinceGrant : Option Nat
  deriving DecidableEq, Repr

/-- The heat budget unit (section 6.4): the draw of each reservation, and the wait lists. -/
structure HeatUnit where
  reserved : Vector (Option Nat) 32
  waitA : List Pocket
  waitB : List Pocket
  waitC : List Pocket
  deriving DecidableEq, Repr

/-- The sag throttle (section 6.5), its timers in milliseconds. -/
structure SagThrottle where
  count : Nat
  windowMs : Nat
  windowRuns : Bool
  active : Bool
  throttleMs : Nat
  deriving DecidableEq, Repr

/-! ### Supply, backup, planner, port -/

/-- The save report (R147). -/
structure SaveReport where
  charged : Nat
  written : Nat
  unsaved : Nat
  pinned : Nat
  deriving DecidableEq, Repr

/-- The save in progress (R142 to R147): frames charged, contexts written, whether the operation in progress at the
warning still runs, and the uptime at the warning. -/
structure SaveRun where
  charged : Nat
  written : Nat
  opAtWarning : Bool
  uptime : Nat
  deriving DecidableEq, Repr

/-- The supply supervisor (chapter 7). -/
structure Supply where
  mainsOk : Bool
  pfw : Bool
  vbkGood : Bool
  settleMs : Nat
  settled : Bool
  uptime : Nat
  secondMs : Nat
  mark : OutageMark
  save : SaveRun
  report : Option SaveReport
  deriving DecidableEq, Repr

/-- The backup domain (R151); `lost`: retention was lost while the core had no supply. -/
structure Backup where
  timer : Nat
  running : Bool
  valid : Bool
  secondMs : Nat
  lost : Bool
  deriving DecidableEq, Repr

/-- Where PLAN stands (R155). -/
inductive PlanStep where
  | none | firstPolls | planning | commits | close
  deriving DecidableEq, Repr

/-- An open first-poll window (R156); `repollMs` counts from the end of the pocket's last entry. -/
structure PollWindow where
  pocket : Pocket
  leftMs : Nat
  repollMs : Option Nat
  deriving DecidableEq, Repr

/-- The image of a record frame handed to the planner (R53, R157): the frame, its contents, and the words of it that
could not be read. -/
structure Image where
  frame : Nat
  data : Frame
  bad : List Nat
  deriving DecidableEq, Repr

/-- The resume planner. `next` is the pocket from which steps 2 and 3 go on (R155), and `tOut` the outage time taken when
step 2 begins (R159). -/
structure Planner where
  step : PlanStep
  next : Nat
  tOut : Option Nat
  window : Option PollWindow
  first : Vector (Option StatusReport) 32
  images : Vector (Option Image) 32
  deriving DecidableEq, Repr

/-- A response (R184). -/
structure Response where
  result : Result
  payload : List Byte
  deriving DecidableEq, Repr

/-- The host port (section 9.1), and the bytes it last shifted out: the status byte of the last frame and what
followed it, where that was not zeros. -/
structure HostPort where
  state : PortState
  request : Option HostReq
  response : Option Response
  dropped : Bool
  shiftedStatus : Byte
  shiftedBody : List Byte
  deriving DecidableEq, Repr

/-- The event set (R185). -/
structure EventSet where
  stateChange : Bool
  store : Bool
  throttle : Bool
  phase : Mask
  hold : Mask
  resume : Mask
  link : Mask
  retired : Mask
  recordLost : Mask
  deriving DecidableEq, Repr

/-! ### The whole part -/

/-- The state of the part. `store` and `backup` outlast a loss of the core supply, and `powered` says whether the core
has supply. `pending` is the queue of commands that wait, first in, first out. -/
structure State where
  powered : Bool
  part : PartState
  port : HostPort
  events : EventSet
  sup : Supply
  backup : Backup
  store : Store
  ctl : StoreCtl
  ctxs : Vector (Option Context) 32
  link : LinkCtl
  arb : Arbiter
  heat : HeatUnit
  sag : SagThrottle
  plan : Planner
  pending : List Instr
  deriving DecidableEq, Repr

/-- The part has no machine fault: every error of the spec is a result, an event or a link state, so no command ends a
run, which is safe. -/
inductive Fault where
  deriving DecidableEq, Repr

/-- Refusals. -/
inductive Refusal where
  /-- A command whose meaning has not been written; safe, since a run stops there. -/
  | notModelled (mnemonic : String)
  deriving DecidableEq, Repr

/-! ### Values after reset -/

/-- No options. -/
def Options.none : Options := ⟨false, false, false⟩

/-- The fast fields of a word of zero data. -/
def Fast.zero : Fast :=
  { phase := .staged, hold := .none, interrupted := .none, heat := 0, cool := 0, temp := 0, progress := .none,
    status := .none, cls := .none, level := .none, outage := 0, extra := 0, lastFault := .none }

/-- The header FORMAT writes (R35). -/
def Header.formatted : Header :=
  { state := .free, writeOpen := false, saved := false, pocket := 0, gen := 0, stamp := 0 }

/-- A frame FREE with every body word zero (R193). -/
def Frame.blank : Frame :=
  { header := Header.formatted, level := 0, options := Options.none, coolLength := 0, plan := .none, fast := Fast.zero,
    stamp := .none }

/-- An invalid map entry with generation 0. -/
def MapEntry.none : MapEntry := ⟨false, 0, 0⟩

/-- DESIGN CHOICE (log entry 3): an array that was never formatted has no valid marker, defaults in its settings, no
record, and reads clean. -/
def Store.unformatted : Store :=
  { format := ⟨false, .standard, 0⟩, settings := Settings.default, mark := ⟨false, 0, 0⟩,
    map := Vector.replicate 32 MapEntry.none, frames := Vector.replicate 48 Frame.blank, flaws := [] }

/-- The error latch EMPTY (R49). -/
def ErrorLatch.cleared : ErrorLatch := ⟨.empty, .header, 0, 0, .patrol⟩

/-- The volatile store state before a START scan (R32, R190; log entry 25 for the copies). -/
def StoreCtl.reset : StoreCtl :=
  { format := ⟨false, .standard, 0⟩, settings := Settings.default, loaded := Settings.default, formatBad := false,
    wordBad := Vector.replicate 13 false, itemBad := Vector.replicate 96 false, scanning := true, scanDone := false,
    free := [], quarantine := 0, mirror := Vector.replicate 32 MapEntry.none, mapFault := 0, queue := [],
    current := .none, cursor := 0, patrolOwed := false, patrolMs := 0, latch := ErrorLatch.cleared, correctable := 0 }

/-- A link record after reset (R87). -/
def PocketLink.reset : PocketLink :=
  { state := .unknown, cause := .none, motorBelieved := false, heatBelieved := .none, lastLevel := .none, stopPosted := false,
    heatOffPosted := false, startAttempts := 0, latchSeen := false, exhaust := .none, offlineMs := .none,
    safeOwed := false, probeOwed := false, runAuthority := false, heatLost := false }

/-- The link controller after reset (R87, R92). -/
def LinkCtl.reset : LinkCtl :=
  { pockets := Vector.replicate 32 PocketLink.reset, queue := [], windowMs := 0, roundMs := 0, sent := [] }

/-- The arbiter after reset (R112, R115, R125). -/
def Arbiter.reset : Arbiter :=
  { requests := Vector.replicate 32 .none, mask := 0, slots := [], sinceGrant := .none }

/-- The heat budget unit after reset (R132). -/
def HeatUnit.reset : HeatUnit := { reserved := Vector.replicate 32 .none, waitA := [], waitB := [], waitC := [] }

/-- The sag throttle after reset (R135). -/
def SagThrottle.reset : SagThrottle :=
  { count := 0, windowMs := 0, windowRuns := false, active := false, throttleMs := 0 }

/-- No save in progress. -/
def SaveRun.none : SaveRun := ⟨0, 0, false, 0⟩

/-- The planner at rest. -/
def Planner.reset : Planner :=
  { step := .none, next := 0, tOut := .none, window := .none, first := Vector.replicate 32 .none, images := Vector.replicate 32 .none }

/-- The host port after reset (R178). -/
def HostPort.reset : HostPort :=
  { state := .idle, request := .none, response := .none, dropped := false, shiftedStatus := 0, shiftedBody := [] }

/-- An empty event set. -/
def EventSet.empty : EventSet := ⟨false, false, false, 0, 0, 0, 0, 0, 0⟩

/-- No context in the file (R58). -/
def noContexts : Vector (Option Context) 32 := Vector.replicate 32 .none

/-- The part right after reset, with every volatile item as R154 and the rules of each block give it, before the START
scan. The store is that of a part never formatted (log entry 3), the supply inputs those of log entry 4. -/
def State.reset : State :=
  { powered := true, part := .start, port := HostPort.reset, events := { EventSet.empty with stateChange := true },
    sup := { mainsOk := true, pfw := false, vbkGood := true, settleMs := 0, settled := false, uptime := 0,
             secondMs := 0, mark := ⟨false, 0, 0⟩, save := SaveRun.none, report := .none },
    backup := { timer := 0, running := false, valid := false, secondMs := 0, lost := false },
    store := Store.unformatted, ctl := StoreCtl.reset, ctxs := noContexts, link := LinkCtl.reset,
    arb := Arbiter.reset, heat := HeatUnit.reset, sag := SagThrottle.reset, plan := Planner.reset, pending := [] }

end Sys2Proof.Machine
end

