-- ==== Sys2Proof/Machine/Flags.lean ====
section
/-! DEFINITION. The part's flags: the marks of the event set, ATN, RDY and the port status byte. -/

namespace Sys2Proof.Machine

/-- The per-pocket event kinds (R185). -/
inductive PocketEvent where
  | phase | hold | resume | link | retired | recordLost
  deriving DecidableEq, Repr

/-- The part-wide event kinds (R185). -/
inductive PartEvent where
  | stateChange | store | throttle
  deriving DecidableEq, Repr

/-- A per-pocket mark set; setting a mark that is set leaves it set (R185). -/
def EventSet.markPocket (e : EventSet) (k : PocketEvent) (p : Pocket) : EventSet :=
  match k with
  | .phase => { e with phase := e.phase.put p true }
  | .hold => { e with hold := e.hold.put p true }
  | .resume => { e with resume := e.resume.put p true }
  | .link => { e with link := e.link.put p true }
  | .retired => { e with retired := e.retired.put p true }
  | .recordLost => { e with recordLost := e.recordLost.put p true }

/-- A part-wide mark set. -/
def EventSet.markPart (e : EventSet) (k : PartEvent) : EventSet :=
  match k with
  | .stateChange => { e with stateChange := true }
  | .store => { e with store := true }
  | .throttle => { e with throttle := true }

/-- ATN is high exactly while the set holds at least one mark (R185). -/
def EventSet.atn (e : EventSet) : Bool :=
  e.stateChange || e.store || e.throttle || e.phase != 0 || e.hold != 0 || e.resume != 0 || e.link != 0
    || e.retired != 0 || e.recordLost != 0

/-- RDY is high exactly in READY (R178). -/
def HostPort.rdy (h : HostPort) : Bool := h.state == .ready

/-- The code of a part state (section 11.5). -/
def PartState.code (s : PartState) : Nat :=
  match s with
  | .start => 0 | .commission => 1 | .plan => 2 | .active => 3 | .save => 4 | .dark => 5

/-- The port status byte as it stands when chip select falls (R178, section 11.2). -/
def State.statusByte (s : State) : Byte :=
  BitVec.ofNat 8 (s.part.code + (if s.port.rdy then 8 else 0) + (if s.events.atn then 16 else 0)
    + (if s.port.dropped then 32 else 0))

end Sys2Proof.Machine
end

