-- ==== Sys2Proof/Machine/Operands.lean ====
section
/-! DEFINITION. The operand forms: byte encodings (R197), the CRC-8 (R198), host frames (section 11.2), link frames
(section 11.4), the record image (section 11.3), and the clamping of request values (R24, R26, R28). -/

namespace Sys2Proof.Machine

/-! ### Bytes and the check code -/

/-- The low `k` bytes of `n`, most significant first (R197). -/
def beBytes : Nat → Nat → List Byte
  | 0, _ => []
  | k + 1, n => BitVec.ofNat 8 (n / 256 ^ k) :: beBytes k n

/-- The number a run of bytes spells, most significant first (R197). -/
def beNat (bs : List Byte) : Nat := bs.foldl (fun a b => a * 256 + b.toNat) 0

/-- One bit of the CRC-8 with polynomial 07h (R198). -/
def crcBit (c : Byte) : Byte := if c.msb then (c <<< 1) ^^^ 0x07 else c <<< 1

/-- One byte of the CRC-8. -/
def crcByte (c b : Byte) : Byte :=
  let x := c ^^^ b
  crcBit (crcBit (crcBit (crcBit (crcBit (crcBit (crcBit (crcBit x)))))))

/-- The CRC-8 of a run of bytes, initial value 0 (R198). -/
def crc8 (bs : List Byte) : Byte := bs.foldl crcByte 0

/-- A run of bytes with its CRC-8 behind it. -/
def withCrc (bs : List Byte) : List Byte := bs ++ [crc8 bs]

/-! ### Enumerations (section 11.5) -/

def LinkState.code (x : LinkState) : Nat :=
  match x with
  | .absent => 0 | .unknown => 1 | .online => 2 | .offline => 3 | .fault => 4

def Phase.code (x : Phase) : Nat :=
  match x with
  | .staged => 0 | .heat => 1 | .cool => 2 | .crease => 3 | .done => 4

def HoldCause.code (x : HoldCause) : Nat :=
  match x with
  | .none => 0 | .door => 1 | .link => 2 | .heatFault => 3 | .resumeAsk => 4 | .damaged => 5

def Interrupted.code (x : Interrupted) : Nat :=
  match x with
  | .heat => 1 | .cool => 2

def ResumeStatus.code (x : ResumeStatus) : Nat :=
  match x with
  | .none => 0 | .pending => 1 | .running => 2

def ResumeClass.code (x : ResumeClass) : Nat :=
  match x with
  | .coolFirst => 1 | .reheat => 2 | .creaseOn => 3

def FaultCause.code (x : FaultCause) : Nat :=
  match x with
  | .retryExhausted => 1 | .silent => 2 | .motorFault => 3 | .heatFault => 4

def Result.code (x : Result) : Nat :=
  match x with
  | .ok => 0 | .okClamped => 1 | .notReady => 2 | .powerFail => 3 | .state => 4 | .range => 5 | .noRecord => 6
  | .exists => 7 | .noFrame => 8 | .mapFault => 9 | .storeFault => 10 | .badFrame => 11 | .unknown => 12

def LatchState.code (x : LatchState) : Nat :=
  match x with
  | .empty => 0 | .correctable => 1 | .uncorrectable => 2

def LatchArea.code (x : LatchArea) : Nat :=
  match x with
  | .header => 0 | .map => 1 | .frame => 2

def LatchSource.code (x : LatchSource) : Nat :=
  match x with
  | .patrol => 0 | .checkpoint => 1 | .read => 2 | .scan => 3

def CommandKind.code (x : CommandKind) : Nat :=
  match x with
  | .poll => 1 | .run => 2 | .heatOn => 3 | .stop => 4 | .heatOff => 5 | .safe => 6 | .clearDoor => 7

/-- Bit `i` of a byte as a flag of value `2 ^ i`. -/
def flagBit (i : Nat) (b : Bool) : Nat := if b then 2 ^ i else 0

/-- Options bits: 0 ASK, 1 NO_CREASE, 2 FIXED_TIME; other bits are ignored (R197). -/
def Options.ofByte (b : Byte) : Options := ⟨b.getLsbD 0, b.getLsbD 1, b.getLsbD 2⟩

def Options.toNat (o : Options) : Nat := flagBit 0 o.ask + flagBit 1 o.noCrease + flagBit 2 o.fixedTime

/-- Options with those of `set` added and those of `clear` removed (R29). -/
def Options.change (o set clear : Options) : Options :=
  ⟨(o.ask || set.ask) && !clear.ask, (o.noCrease || set.noCrease) && !clear.noCrease,
   (o.fixedTime || set.fixedTime) && !clear.fixedTime⟩

/-- Whether an option is named in both masks (R29). -/
def Options.clash (set clear : Options) : Bool :=
  (set.ask && clear.ask) || (set.noCrease && clear.noCrease) || (set.fixedTime && clear.fixedTime)

/-! ### Clamping -/

/-- A crease plan with each field clamped to its own range (R24, section 4.1). -/
def clampPlan (c : CreasePlan) : CreasePlan :=
  { tumbles := clampTo 0 60 c.tumbles, interval := clampTo 30 600 c.interval, length := clampTo 5 60 c.length,
    window := clampTo 60 7200 c.window }

/-- The plan a new record gets: clamped in STANDARD geometry, dropped in COMPACT (R24). -/
def openPlan (g : Geometry) (plan : Option CreasePlan) : Option CreasePlan :=
  match g, plan with
  | .standard, some c => some (clampPlan c)
  | _, _ => none

/-- The static fields OPEN gives a record (R24). -/
def openStatics (g : Geometry) (a : OpenArgs) : Statics :=
  { level := clampTo 1 3 a.level, options := Options.ofByte a.options, coolLength := clampTo 0 Config.coolMax a.cool,
    plan := openPlan g a.plan }

/-- The heat seconds OPEN gives a record (R24). -/
def openHeat (a : OpenArgs) : Nat := clampTo 0 Config.heatMax a.heat

/-- Whether OPEN had to clamp or drop a value (R24). -/
def openClamped (g : Geometry) (a : OpenArgs) : Bool :=
  (openStatics g a).level != a.level || (openStatics g a).coolLength != a.cool || openHeat a != a.heat
    || (openStatics g a).plan != a.plan

/-- The seconds EXTEND adds and the heat remaining it leaves, and whether either was clamped (R26). -/
def extended (heat seconds : Nat) : Nat × Bool :=
  let add := clampTo 0 Config.heatMax seconds
  let sum := min Config.heatMax (heat + add)
  (sum, add != seconds || sum != heat + add)

/-- The generation after `g`; after 65,535 the next is 1 (R2). -/
def nextGeneration (g : Nat) : Nat := if g ≥ Config.generationMax then 1 else g + 1

/-! ### Host REQUEST frames (section 11.2) -/

/-- Request codes. -/
def reqCode (r : HostReq) : Nat :=
  match r with
  | .openRecord _ _ => 1 | .start _ => 2 | .extend _ _ => 3 | .endHeat _ => 4 | .setHeat _ _ => 5
  | .setOptions _ _ _ => 6 | .retire _ => 7 | .lookup _ => 8 | .hold _ => 9 | .release _ => 10 | .holdMask _ _ => 11
  | .clearPocket _ => 12 | .remap _ => 13 | .status => 14 | .events => 15 | .storeReport => 16 | .clearLatch => 17
  | .enterCommission => 18 | .format _ _ => 19 | .setSetting _ _ => 20 | .getSetting _ => 21 | .leaveCommission => 22

/-- The pocket field of a request; 255 where it carries none. -/
def reqPocketField (r : HostReq) : Nat :=
  match r with
  | .openRecord p _ | .start p | .extend p _ | .endHeat p | .setHeat p _ | .setOptions p _ _ | .retire p | .lookup p
  | .hold p | .release p | .clearPocket p | .remap p => p
  | _ => 255

/-- The payload bytes of a crease plan in OPEN. -/
def planBytes (c : CreasePlan) : List Byte :=
  beBytes 1 c.tumbles ++ beBytes 2 c.interval ++ beBytes 1 c.length ++ beBytes 2 c.window

/-- The payload of a request. -/
def reqPayload (r : HostReq) : List Byte :=
  match r with
  | .openRecord _ a =>
    beBytes 1 a.level ++ [a.options] ++ beBytes 2 a.heat ++ beBytes 2 a.cool
      ++ (match a.plan with
          | some c => planBytes c
          | none => [])
  | .extend _ n => beBytes 2 n
  | .setHeat _ n => beBytes 1 n
  | .setOptions _ s c => [s, c]
  | .holdMask s c => beBytes 4 s.toNat ++ beBytes 4 c.toNat
  | .format g n => beBytes 1 g ++ beBytes 1 n
  | .setSetting i v => beBytes 1 i ++ beBytes 4 v
  | .getSetting i => beBytes 1 i
  | _ => []

/-- A request as the bytes of its REQUEST frame after the frame kind, CRC included. -/
def reqFrame (r : HostReq) : List Byte :=
  withCrc (beBytes 1 (reqCode r) ++ beBytes 1 (reqPocketField r) ++ beBytes 1 (reqPayload r).length ++ reqPayload r)

/-- What the port makes of the bytes of a REQUEST frame: an answer given at once, or a request (R179, R181). -/
inductive FrameReading where
  | answer (result : Result)
  | request (req : HostReq)
  deriving DecidableEq, Repr

/-- The crease plan spelled by the last six bytes of a long OPEN payload. -/
def readPlan (bs : List Byte) : Option CreasePlan :=
  match bs with
  | [t, i1, i0, l, w1, w0] => some { tumbles := t.toNat, interval := beNat [i1, i0], length := l.toNat, window := beNat [w1, w0] }
  | _ => none

/-- A request read from its code, pocket field and payload: UNKNOWN for a code that is none of the part's, BAD_FRAME
for a payload length that does not suit the code (R181). -/
def readRequest (code pocket : Nat) (pl : List Byte) : FrameReading :=
  match code, pl with
  | 1, [l, o, h1, h0, c1, c0] => .request (.openRecord pocket ⟨l.toNat, o, beNat [h1, h0], beNat [c1, c0], none⟩)
  | 1, [l, o, h1, h0, c1, c0, t, i1, i0, n, w1, w0] =>
    .request (.openRecord pocket ⟨l.toNat, o, beNat [h1, h0], beNat [c1, c0], readPlan [t, i1, i0, n, w1, w0]⟩)
  | 2, [] => .request (.start pocket)
  | 3, [a, b] => .request (.extend pocket (beNat [a, b]))
  | 4, [] => .request (.endHeat pocket)
  | 5, [a] => .request (.setHeat pocket a.toNat)
  | 6, [s, c] => .request (.setOptions pocket s c)
  | 7, [] => .request (.retire pocket)
  | 8, [] => .request (.lookup pocket)
  | 9, [] => .request (.hold pocket)
  | 10, [] => .request (.release pocket)
  | 11, [a, b, c, d, e, f, g, h] =>
    .request (.holdMask (BitVec.ofNat 32 (beNat [a, b, c, d])) (BitVec.ofNat 32 (beNat [e, f, g, h])))
  | 12, [] => .request (.clearPocket pocket)
  | 13, [] => .request (.remap pocket)
  | 14, [] => .request .status
  | 15, [] => .request .events
  | 16, [] => .request .storeReport
  | 17, [] => .request .clearLatch
  | 18, [] => .request .enterCommission
  | 19, [g, n] => .request (.format g.toNat n.toNat)
  | 20, [i, a, b, c, d] => .request (.setSetting i.toNat (beNat [a, b, c, d]))
  | 21, [i] => .request (.getSetting i.toNat)
  | 22, [] => .request .leaveCommission
  | n, _ => if 1 ≤ n ∧ n ≤ 22 then .answer .badFrame else .answer .unknown

/-- The bytes of a REQUEST frame after the frame kind, as received when chip select rises: incomplete, with a length
above 24 or a wrong CRC they are answered BAD_FRAME; bytes after the CRC are ignored (R179). -/
def readFrame (bs : List Byte) : FrameReading :=
  match bs with
  | code :: pocket :: len :: rest =>
    if len.toNat > 24 ∨ rest.length ≤ len.toNat then .answer .badFrame
    else if crc8 (code :: pocket :: len :: rest.take (len.toNat + 1)) ≠ 0 then .answer .badFrame
    else readRequest code.toNat pocket.toNat (rest.take len.toNat)
  | _ => .answer .badFrame

/-- A response as shifted out after the status byte of a FETCH frame (R180). -/
def Response.bytes (r : Response) : List Byte :=
  withCrc (beBytes 1 r.result.code ++ beBytes 1 r.payload.length ++ r.payload)

/-! ### Pocket link frames (section 11.4) -/

/-- The command frame of a link entry: 80h plus address, kind, parameter of a HEAT_ON, CRC-8. -/
def Entry.bytes (e : Entry) : List Byte :=
  let address := match e.pocket with
    | some p => p.val
    | none => Config.broadcastAddress
  withCrc (beBytes 1 (0x80 + address) ++ beBytes 1 e.kind.code
    ++ (if e.kind = .heatOn then beBytes 1 (e.level.getD 0) else []))

/-- A reply of a pocket board. -/
inductive Reply where
  | status (report : StatusReport)
  | ack
  | notReady (why : NotReady)
  deriving DecidableEq, Repr

/-- A STATUS payload of two bytes. -/
def readStatus (a b : Byte) : StatusReport :=
  { doorOpen := a.getLsbD 0, latch := a.getLsbD 1, motorRunning := a.getLsbD 2, heatOn := a.getLsbD 3,
    motorFault := a.getLsbD 4, heatFault := a.getLsbD 5, exhaust := b.toNat }

/-- The kind and payload of a reply whose length suits its kind and whose NOT_READY reason is one of the three. -/
def readReplyBody (kind : Nat) (pl : List Byte) : Option Reply :=
  match kind, pl with
  | 0x81, [a, b] => some (.status (readStatus a b))
  | 0x82, [] => some .ack
  | 0x83, [r] =>
    match r.toNat with
    | 1 => some (.notReady .doorOpen)
    | 2 => some (.notReady .lockout)
    | 3 => some (.notReady .busy)
    | _ => none
  | _, _ => none

/-- Whether a reply's kind is one that the command expects (R85). -/
def Reply.expectedBy (r : Reply) (k : CommandKind) : Bool :=
  match r with
  | .status _ => k == .poll
  | _ => k != .poll

/-- A good reply to a command of kind `k` to pocket `p`, by the tests of R84. The whole first byte is compared with the
address, so a 1 in bit 6 makes the reply not good. DESIGN CHOICE: log entry 69. -/
def readReply (p : Pocket) (k : CommandKind) (bs : List Byte) : Option Reply :=
  match bs with
  | address :: kind :: rest =>
    if crc8 bs ≠ 0 ∨ address.toNat ≠ p.val ∨ rest.length = 0 then none
    else
      match readReplyBody kind.toNat (rest.take (rest.length - 1)) with
      | some r => if r.expectedBy k then some r else none
      | none => none
  | _ => none

/-! ### The record image (section 11.3) -/

/-- The 43 bytes of a record image; absent fields are zero, and a COMPACT record has no crease plan, extra seconds or
last fault (R1, R31, R67). -/
def imageBytes (g : Geometry) (p gen : Nat) (st : Statics) (f : Fast) (sh : Shadow) (writeOpen pinned : Bool) : List Byte :=
  let std := g == .standard
  let plan := if std then st.plan else none
  let fault := if std then f.lastFault else none
  let pl := plan.getD ⟨0, 0, 0, 0⟩
  let cp := f.progress.getD ⟨0, 0, 0, false⟩
  let stp := sh.plan.getD ⟨0, 0⟩
  let presence := flagBit 0 plan.isSome + flagBit 1 f.progress.isSome + flagBit 2 f.cls.isSome
    + flagBit 3 f.interrupted.isSome + flagBit 4 std + flagBit 5 fault.isSome + flagBit 6 sh.plan.isSome
  let flags := flagBit 0 sh.saved + flagBit 1 writeOpen + flagBit 2 pinned + flagBit 3 cp.tumbling
  beBytes 1 p ++ beBytes 2 gen ++ beBytes 1 st.level ++ beBytes 1 st.options.toNat ++ beBytes 2 st.coolLength
    ++ beBytes 1 presence ++ beBytes 1 flags ++ beBytes 1 pl.tumbles ++ beBytes 2 pl.interval ++ beBytes 1 pl.length
    ++ beBytes 2 pl.window ++ beBytes 1 f.phase.code ++ beBytes 1 f.hold.code
    ++ beBytes 1 ((f.interrupted.map Interrupted.code).getD 0) ++ beBytes 2 f.heat ++ beBytes 2 f.cool
    ++ beBytes 1 f.temp ++ beBytes 1 cp.remaining ++ beBytes 2 cp.nextDue ++ beBytes 2 cp.window
    ++ beBytes 1 f.status.code ++ beBytes 1 ((f.cls.map ResumeClass.code).getD 0) ++ beBytes 1 (f.level.getD 0)
    ++ beBytes 1 f.outage ++ beBytes 2 (if std then f.extra else 0) ++ beBytes 1 ((fault.map FaultCause.code).getD 0)
    ++ beBytes 1 stp.seq ++ beBytes 3 stp.base ++ beBytes 4 sh.stamp

end Sys2Proof.Machine
end

