-- ==== Sys2Proof/Machine/Store.lean ====
section
/-! DEFINITION. The record store as an array of words: geometry, which word holds which field, the condition of each
word, and the fast fields as a set (R32, R33, R36, R59). -/

namespace Sys2Proof.Machine

/-! ### Geometry -/

/-- Words of a frame (R32). -/
def frameSize (g : Geometry) : Nat :=
  match g with
  | .standard => 16 | .compact => 8

/-- Frames of the geometry (R32). -/
def frameCount (g : Geometry) : Nat :=
  match g with
  | .standard => 24 | .compact => 48

/-- Largest pocket count of the geometry (R32). -/
def pocketMax (g : Geometry) : Nat :=
  match g with
  | .standard => 16 | .compact => 32

/-- The store word that is word `k` of frame `f` (R32). -/
def frameWord (g : Geometry) (f k : Nat) : Nat := 46 + frameSize g * f + k

/-- The store word that holds the map entry of pocket `p` (section 2.1). -/
def mapWord (p : Pocket) : Nat := 14 + p.val

/-- The outage mark's word (section 2.1). -/
def markWord : Nat := 13

/-- What a word of a frame holds (section 2.2). -/
inductive Role where
  | header | first | second | plan | progress | extra | stamp | fill
  deriving DecidableEq, Repr

/-- The role of word `k` of a frame (section 2.2). -/
def roleOf (g : Geometry) (k : Nat) : Role :=
  match g, k with
  | _, 0 => .header
  | _, 1 => .first
  | _, 2 => .second
  | .standard, 3 => .plan
  | .standard, 4 => .progress
  | .standard, 5 => .extra
  | .standard, 6 => .stamp
  | .compact, 3 => .progress
  | .compact, 4 => .stamp
  | _, _ => .fill

/-- The word of a frame that holds the plan stamp (R62). -/
def stampWord (g : Geometry) : Nat :=
  match g with
  | .standard => 6 | .compact => 4

/-- The word of a frame that holds the crease progress and the outage count. -/
def progressWord (g : Geometry) : Nat :=
  match g with
  | .standard => 4 | .compact => 3

/-- The static words of a frame (R36). -/
def staticWords (g : Geometry) : List Nat :=
  match g with
  | .standard => [1, 3] | .compact => [1]

/-- Whether a pocket count agrees with a geometry (R51, R193). -/
def countAgrees (g : Geometry) (n : Nat) : Bool := 1 ≤ n && n ≤ pocketMax g

/-! ### Conditions of words -/

/-- The condition of a word: absent when it reads clean (R33). -/
def Store.flaw (s : Store) (n : Nat) : Option Flaw := s.flaws.lookup n

/-- The list of flaws with word `n` made clean or given a flaw, kept in rising order. -/
def putFlaw : List (Nat × Flaw) → Nat → Option Flaw → List (Nat × Flaw)
  | [], _, none => []
  | [], n, some x => [(n, x)]
  | (m, y) :: r, n, v =>
    if n < m then
      match v with
      | none => (m, y) :: r
      | some x => (n, x) :: (m, y) :: r
    else if n = m then
      match v with
      | none => r
      | some x => (n, x) :: r
    else (m, y) :: putFlaw r n v

/-- The canonical form of the store's conditions: words strictly rising, each a word of the array. -/
def Store.wf (s : Store) : Bool :=
  (s.flaws.map (·.1)).Pairwise (· < ·) && s.flaws.all fun x => x.1 < Config.storeWords

/-- The store with word `n` made clean or given a flaw; no word past the array. -/
def Store.setFlaw (s : Store) (n : Nat) (v : Option Flaw) : Store :=
  if n < Config.storeWords then { s with flaws := putFlaw s.flaws n v } else s

/-- A word fails: an uncorrectable word does not become correctable by failing again. -/
def Store.fail (s : Store) (x : Nat × Flaw) : Store :=
  if s.flaw x.1 = some .uncorrectable then s else s.setFlaw x.1 (some x.2)

/-- Whether a word can be read (R33). -/
def Store.readable (s : Store) (n : Nat) : Bool := s.flaw n != some .uncorrectable

/-! ### Frames -/

/-- The contents of frame `f`. -/
def Store.frame (s : Store) (f : Nat) : Frame := if h : f < 48 then s.frames[f] else Frame.blank

/-- The store with frame `f` replaced. -/
def Store.setFrame (s : Store) (f : Nat) (x : Frame) : Store :=
  if h : f < 48 then { s with frames := s.frames.set f x h } else s

/-- Whether a set of fast fields has field `i`. -/
def FieldSet.has (m : FieldSet) (i : Nat) : Bool := m.getLsbD i

/-- The fast fields whose values differ (R59). -/
def Fast.diff (a b : Fast) : FieldSet :=
  (if a.phase = b.phase then 0 else 0x0001) ||| (if a.hold = b.hold then 0 else 0x0002)
    ||| (if a.interrupted = b.interrupted then 0 else 0x0004) ||| (if a.heat = b.heat then 0 else 0x0008)
    ||| (if a.cool = b.cool then 0 else 0x0010) ||| (if a.temp = b.temp then 0 else 0x0020)
    ||| (if a.progress = b.progress then 0 else 0x0040) ||| (if a.status = b.status then 0 else 0x0080)
    ||| (if a.cls = b.cls then 0 else 0x0100) ||| (if a.level = b.level then 0 else 0x0200)
    ||| (if a.outage = b.outage then 0 else 0x0400) ||| (if a.extra = b.extra then 0 else 0x0800)
    ||| (if a.lastFault = b.lastFault then 0 else 0x1000)

/-- The fields of the set taken from `new`, the others from `old`. -/
def Fast.blend (m : FieldSet) (new old : Fast) : Fast :=
  { phase := if m.has 0 then new.phase else old.phase
    hold := if m.has 1 then new.hold else old.hold
    interrupted := if m.has 2 then new.interrupted else old.interrupted
    heat := if m.has 3 then new.heat else old.heat
    cool := if m.has 4 then new.cool else old.cool
    temp := if m.has 5 then new.temp else old.temp
    progress := if m.has 6 then new.progress else old.progress
    status := if m.has 7 then new.status else old.status
    cls := if m.has 8 then new.cls else old.cls
    level := if m.has 9 then new.level else old.level
    outage := if m.has 10 then new.outage else old.outage
    extra := if m.has 11 then new.extra else old.extra
    lastFault := if m.has 12 then new.lastFault else old.lastFault }

/-- The fast fields a word holds (section 2.2). -/
def Role.fields (r : Role) : FieldSet :=
  match r with
  | .first => 0x0007
  | .second => 0x03B8
  | .progress => 0x0440
  | .extra => 0x1800
  | _ => 0

/-- Every fast field of a record of the geometry: a COMPACT record has no extra seconds and no last fault (R1). -/
def allFields (g : Geometry) : FieldSet :=
  match g with
  | .standard => 0x1FFF | .compact => 0x07FF

/-- Word `r` of a frame written whole with what `src` holds in it. -/
def Frame.copyWord (r : Role) (src dst : Frame) : Frame :=
  let d := { dst with fast := Fast.blend r.fields src.fast dst.fast }
  match r with
  | .header => { d with header := src.header }
  | .first => { d with level := src.level, options := src.options, coolLength := src.coolLength }
  | .plan => { d with plan := src.plan }
  | .stamp => { d with stamp := src.stamp }
  | _ => d

/-- The static fields a frame holds. -/
def Frame.statics (f : Frame) : Statics := ⟨f.level, f.options, f.coolLength, f.plan⟩

/-- A frame with its static fields replaced. -/
def Frame.withStatics (f : Frame) (x : Statics) : Frame :=
  { f with level := x.level, options := x.options, coolLength := x.coolLength, plan := x.plan }

/-- The words of a frame that hold a field of the set, in ascending order (R59, R62). -/
def wordsOf (g : Geometry) (m : FieldSet) : List Nat :=
  (List.range (frameSize g)).filter fun k => (roleOf g k).fields &&& m != 0

end Sys2Proof.Machine
end

