-- ==== Sys2Proof/Machine/Ops.lean ====
section
/-! DEFINITION. The named operations over the state that every command uses: settings, contexts and their dirty sets,
word reads and writes of the record store, the error latch, the pools and the operation queue, responses. -/

namespace Sys2Proof.Machine

/-! ### A command in progress -/

/-- The state while one command is taken, with what is still owed before it ends: the pockets an entry of which has
left the link queue, whether any entry has left it and whether it has dropped below its limit (R96), the pockets whose
commands were held back for that limit when room appeared (R93), whether the wait lists are to be served (R131) and a
grant to be evaluated (R119), and the words that fail between a write of this command and its read-back (log entry 2). -/
structure Work extends State where
  gone : Mask
  anyGone : Bool
  drop : Bool
  room : Option Mask
  serve : Bool
  grant : Bool
  post : List (Nat × Flaw)

/-- A command begins with nothing owed. -/
def Work.begin (s : State) : Work :=
  { toState := s, gone := 0, anyGone := false, drop := false, room := none, serve := false, grant := false,
    post := [] }

/-! ### Settings -/

/-- A setting as the blocks hold it (R34, R194). -/
def State.setting (s : State) (i : Nat) : Nat := s.ctl.loaded.item i

/-- The configured pocket count P. -/
def State.count (s : State) : Nat := s.ctl.format.count

/-- The store geometry. -/
def State.geometry (s : State) : Geometry := s.ctl.format.geometry

/-- The pockets 0..P−1 in ascending order. -/
def State.pockets (s : State) : List Pocket := allPockets.filter fun p => p.val < s.count

/-- The supply phase a pocket is wired to (R126). -/
def State.phaseOf (s : State) (p : Pocket) : SupplyPhase :=
  match s.setting (32 + p.val) with
  | 0 => .a | 1 => .b | _ => .c

/-- A pocket's heat draw (R126). -/
def State.draw (s : State) (p : Pocket) : Nat := s.setting (64 + p.val)

/-- A supply phase's budget (R126). -/
def State.budget (s : State) (x : SupplyPhase) : Nat :=
  match x with
  | .a => s.setting 28 | .b => s.setting 29 | .c => s.setting 30

/-- The default crease plan of the settings (R69). -/
def State.defaultPlan (s : State) : CreasePlan := ⟨s.setting 14, s.setting 15, s.setting 16, s.setting 17⟩

/-- A record's effective crease plan: its own in STANDARD geometry when it has one, else the default (R69). -/
def State.effectivePlan (s : State) (plan : Option CreasePlan) : CreasePlan :=
  match s.geometry, plan with
  | .standard, some c => c
  | _, _ => s.defaultPlan

/-- The safe values of lost static fields (R42). -/
def State.safeStatics (s : State) : Statics := ⟨1, ⟨true, false, false⟩, s.setting 22, none⟩

/-- Static fields with those of the words that cannot be read at their safe values: word 1 holds the heat level, the
options and the cool length, word 3 of a STANDARD frame the crease plan (R36, R42). -/
def State.keepReadable (s : State) (x : Statics) (firstOk planOk : Bool) : Statics :=
  let safe := s.safeStatics
  { level := if firstOk then x.level else safe.level
    options := if firstOk then x.options else safe.options
    coolLength := if firstOk then x.coolLength else safe.coolLength
    plan := if planOk then x.plan else safe.plan }

/-! ### Events and responses -/

/-- A per-pocket event mark is set (R185). -/
def Work.mark (w : Work) (k : PocketEvent) (p : Pocket) : Work := { w with events := w.events.markPocket k p }

/-- A part-wide event mark is set (R185). -/
def Work.markPart (w : Work) (k : PartEvent) : Work := { w with events := w.events.markPart k }

/-- The owner hands its answer to the response buffer: the port goes to READY (R178, R184). -/
def Work.respond (w : Work) (r : Result) (payload : List Byte) : Work :=
  { w with port := { w.port with state := .ready, request := none, response := some ⟨r, payload⟩ } }

/-- A change of part state, taken whole (R139). -/
def Work.enter (w : Work) (x : PartState) : Work := { w.markPart .stateChange with part := x }

/-! ### Contexts -/

/-- The context of pocket `p`. -/
def State.ctx (s : State) (p : Pocket) : Option Context := s.ctxs[p]

/-- The context of pocket `p` replaced. -/
def Work.setCtx (w : Work) (p : Pocket) (c : Option Context) : Work := { w with ctxs := upd w.ctxs p c }

/-- The context of pocket `p` changed, if there is one. -/
def Work.onCtx (w : Work) (p : Pocket) (f : Context → Context) : Work :=
  match w.ctx p with
  | some c => w.setCtx p (some (f c))
  | none => w

/-- Fast fields changed; those whose value changes join the dirty set, and count as changed since their values were last
taken (R59). -/
def Context.change (c : Context) (f : Fast → Fast) : Context :=
  { c with fast := f c.fast, dirty := c.dirty ||| Fast.diff c.fast (f c.fast), since := c.since ||| Fast.diff c.fast (f c.fast) }

/-- Fast fields of the context of `p` changed. -/
def Work.onFast (w : Work) (p : Pocket) (f : Fast → Fast) : Work := w.onCtx p (·.change f)

/-- The number of live contexts (R187). -/
def State.contextCount (s : State) : Nat := (allPockets.filter fun p => (s.ctx p).isSome).length

/-- The last fault recorded, which a COMPACT record does not keep (R1). -/
def Work.recordFault (w : Work) (p : Pocket) (x : FaultCause) : Work :=
  match w.geometry with
  | .standard => w.onFast p fun f => { f with lastFault := some x }
  | .compact => w

/-! ### Words of the store -/

/-- Where a word lies, for the error latch (section 2.7). -/
def State.locate (s : State) (n : Nat) : LatchArea × Nat × Nat :=
  if n < 14 then (.header, 0, n)
  else if n < 46 then (.map, 0, n - 14)
  else (.frame, (n - 46) / frameSize s.geometry, (n - 46) % frameSize s.geometry)

/-- An error is offered to the error latch (R49): it fills an EMPTY latch, and an uncorrectable one replaces a
correctable one; each fill or replacement sets a STORE event. -/
def Work.offer (w : Work) (n : Nat) (x : Flaw) (src : LatchSource) : Work :=
  let place := w.locate n
  let latch (st : LatchState) : ErrorLatch := ⟨st, place.1, place.2.1, place.2.2, src⟩
  match w.ctl.latch.state, x with
  | .empty, .correctable => { w.markPart .store with ctl := { w.ctl with latch := latch .correctable } }
  | .empty, .uncorrectable => { w.markPart .store with ctl := { w.ctl with latch := latch .uncorrectable } }
  | .correctable, .uncorrectable => { w.markPart .store with ctl := { w.ctl with latch := latch .uncorrectable } }
  | _, _ => w

/-- A correctable read raises the correctable count, which saturates (R50). -/
def Work.countCorrectable (w : Work) : Work :=
  { w with ctl := { w.ctl with correctable := min Config.correctableMax (w.ctl.correctable + 1) } }

/-- Word `n` has been written whole and reads clean until it fails again (R33). -/
def Work.wrote (w : Work) (n : Nat) : Work := { w with store := w.store.setFlaw n none }

/-- Word `n` is read: a correctable word is counted, offered to the latch and written back where that is allowed; an
uncorrectable one is offered (R33). -/
def Work.readWord (w : Work) (n : Nat) (src : LatchSource) (writeBack : Bool) : Work :=
  match w.store.flaw n with
  | none => w
  | some .correctable =>
    let w := w.countCorrectable.offer n .correctable src
    if writeBack then w.wrote n else w
  | some .uncorrectable => w.offer n .uncorrectable src

/-- The words that have failed by the time a store event reads them. -/
def Work.fail (w : Work) (xs : List (Nat × Flaw)) : Work := { w with store := xs.foldl Store.fail w.store }

/-- Failures between the write of word `n` and its read-back. -/
def Work.failAfterWrite (w : Work) (n : Nat) : Work := w.fail (w.post.filter fun x => x.1 == n)

/-- Whether word `n` can be read. -/
def State.readable (s : State) (n : Nat) : Bool := s.store.readable n

/-- A map write: the store word and the mirror together, read back at once; an uncorrectable read-back makes the
pocket map-faulted (R37). DEDUCED: log entry 38. The read-back is offered to the error latch with the source READ, in
the START scan too. DESIGN CHOICE: log entry 51. -/
def Work.writeMap (w : Work) (p : Pocket) (e : MapEntry) : Work :=
  let w : Work := { w with store := { w.store with map := upd w.store.map p e },
                           ctl := { w.ctl with mirror := upd w.ctl.mirror p e } }
  let w := (w.wrote (mapWord p)).failAfterWrite (mapWord p)
  let ok := w.readable (mapWord p)
  let w := w.readWord (mapWord p) .read true
  if ok || w.ctl.mapFault.has p then w else { w.markPart .store with ctl := { w.ctl with mapFault := w.ctl.mapFault.put p true } }

/-- Whether the last map write of `p` was read back clean or correctable (R37). -/
def State.mapGood (s : State) (p : Pocket) : Bool := s.readable (mapWord p)

/-- The map fault of a pocket ends, with a STORE event (R39). -/
def Work.endMapFault (w : Work) (p : Pocket) : Work :=
  if w.ctl.mapFault.has p then { w.markPart .store with ctl := { w.ctl with mapFault := w.ctl.mapFault.put p false } } else w

/-- A frame header is written whole (R35). -/
def Work.writeHeader (w : Work) (f : Nat) (h : Header) : Work :=
  Work.wrote { w with store := w.store.setFrame f { w.store.frame f with header := h } } (frameWord w.geometry f 0)

/-- Word `k` of frame `f` is written whole with what `src` holds in it. -/
def Work.writeFrameWord (w : Work) (f k : Nat) (src : Frame) : Work :=
  Work.wrote { w with store := w.store.setFrame f (Frame.copyWord (roleOf w.geometry k) src (w.store.frame f)) }
    (frameWord w.geometry f k)

/-- Header written FREE or QUARANTINED: its pocket, generation and stamp are kept by a writer that frees the frame, and by
one that quarantines it where they are readable, otherwise 0 (R35). -/
def State.withdrawnHeader (s : State) (f : Nat) (st : FrameState) : Header :=
  let h := (s.store.frame f).header
  if st = .free ∨ s.readable (frameWord s.geometry f 0) then
    { state := st, writeOpen := false, saved := false, pocket := h.pocket, gen := h.gen, stamp := h.stamp }
  else { state := st, writeOpen := false, saved := false, pocket := 0, gen := 0, stamp := 0 }

/-! ### Pools and the operation queue -/

/-- A store operation joins the queue at its tail (R40). DESIGN CHOICE: log entry 36. -/
def Work.enqueue (w : Work) (op : StoreOp) : Work := { w with ctl := { w.ctl with queue := w.ctl.queue ++ [op] } }

/-- Whether a queued operation is a checkpoint of `p`. -/
def StoreOp.isCheckpointOf (op : StoreOp) (p : Pocket) : Bool :=
  match op with
  | .checkpoint q => q == p
  | _ => false

/-- Whether a queued operation is a move of `p`. -/
def StoreOp.isMoveOf (op : StoreOp) (p : Pocket) : Bool :=
  match op with
  | .move q _ _ => q == p
  | _ => false

/-- Whether a queued operation is the cycle engine's static read of `p`. -/
def StoreOp.isReadOf (op : StoreOp) (p : Pocket) : Bool :=
  match op with
  | .staticRead q _ => q == p
  | _ => false

/-- Whether a checkpoint of `p` waits. -/
def State.checkpointQueued (s : State) (p : Pocket) : Bool := s.ctl.queue.any (·.isCheckpointOf p)

/-- A checkpoint of the context of `p` is demanded: merged into one that waits, else enqueued; none in SAVE or DARK
(R40, R61, R141). -/
def Work.demandCheckpoint (w : Work) (p : Pocket) : Work :=
  if w.part = .save ∨ w.part = .dark ∨ (w.ctx p).isNone ∨ w.checkpointQueued p then w
  else (w.onCtx p fun c => { c with checkpoint := if c.checkpoint = .writing then .writing else .queued }).enqueue (.checkpoint p)

/-- A static read for the cycle engine: joined to one that waits for the record, else enqueued (R22, R40).
DEDUCED: log entry 10. -/
def Work.demandRead (w : Work) (p : Pocket) (why : ReadPurpose) : Work :=
  if w.ctl.queue.any (·.isReadOf p) then
    { w with ctl := { w.ctl with queue := w.ctl.queue.map fun op =>
        match op with
        | .staticRead q ps => if q = p then .staticRead q (if ps.contains why then ps else ps ++ [why]) else op
        | _ => op } }
  else w.enqueue (.staticRead p [why])

/-- A frame joins the quarantine set, with a STORE event (R46). -/
def Work.quarantineFrame (w : Work) (f : Nat) : Work :=
  { w.markPart .store with ctl := { w.ctl with quarantine := w.ctl.quarantine ||| BitVec.twoPow 48 f } }

/-- Whether a frame is quarantined. -/
def State.quarantined (s : State) (f : Nat) : Bool := s.ctl.quarantine.getLsbD f

/-- The number of quarantined frames (R188). -/
def State.quarantineCount (s : State) : Nat := ((List.range 48).filter fun f => s.quarantined f).length

/-- The pinned pocket of lowest number that has no move queued, with its frame (R43). -/
def State.reliefCandidate (s : State) : Option (Pocket × Nat) :=
  allPockets.findSome? fun p =>
    match s.ctx p with
    | some c => if c.pinned && !(s.ctl.queue.any (·.isMoveOf p)) then some (p, c.frame) else none
    | none => none

/-- A frame joins the tail of the free list, and a move is enqueued for a pinned record (R43, R46); not while the save
runs in its fixed order or in DARK (R48, R144, log entry 21). -/
def Work.freeFrame (w : Work) (f : Nat) : Work :=
  let w : Work := { w with ctl := { w.ctl with free := w.ctl.free ++ [f] } }
  if w.part = .active ∨ w.part = .plan then
    match w.reliefCandidate with
    | some (p, fr) => w.enqueue (.move p fr false)
    | none => w
  else w

end Sys2Proof.Machine
end

