-- ==== Sys2Proof/Machine/LinkOps.lean ====
section
/-! DEFINITION. Shared operations of the pocket link (chapter 5), of the heat budget unit (section 6.4) and of the
start arbiter (sections 6.1 to 6.3). -/

namespace Sys2Proof.Machine

/-! ### Link records -/

/-- The link record of `p`. -/
def State.pocketLink (s : State) (p : Pocket) : PocketLink := s.link.pockets[p]

/-- The link record of `p` changed. -/
def Work.onLink (w : Work) (p : Pocket) (f : PocketLink → PocketLink) : Work :=
  { w with link := { w.link with pockets := upd w.link.pockets p (f (w.pocketLink p)) } }

/-- The motor is confirmed running (R18, R86). -/
def State.motorConfirmed (s : State) (p : Pocket) : Bool := (s.pocketLink p).motorBelieved && !(s.pocketLink p).stopPosted

/-- The heat is confirmed on (R17, R86). DEDUCED: log entry 11. -/
def State.heatConfirmed (s : State) (p : Pocket) : Bool :=
  (s.pocketLink p).heatBelieved.isSome && !(s.pocketLink p).heatOffPosted

/-- Whether the record of `p` is desired to have its motor running (R20): in HEAT and COOL without a hold; in CREASE
from the grant of its start through the tumble it begins. DEDUCED: log entry 12. -/
def State.motorDesired (s : State) (p : Pocket) : Bool :=
  match s.ctx p with
  | none => false
  | some c =>
    c.fast.hold == .none &&
      match c.fast.phase with
      | .heat => true
      | .cool => true
      | .crease => c.tumbleGranted || (c.fast.progress.map (·.tumbling)).getD false
      | _ => false

/-- Whether the record of `p` is desired to have its heat on: in HEAT without a hold, once the motor is confirmed
running (R20). -/
def State.heatDesired (s : State) (p : Pocket) : Bool :=
  match s.ctx p with
  | none => false
  | some c => c.fast.hold == .none && c.fast.phase == .heat && s.motorConfirmed p

/-- The believed motor state changed; a motor that becomes believed RUNNING has no STOP posted since (R86). -/
def Work.believeMotor (w : Work) (p : Pocket) (running : Bool) : Work :=
  w.onLink p fun l =>
    { l with motorBelieved := running, stopPosted := if running && !l.motorBelieved then false else l.stopPosted }

/-- The believed heat state changed; a heat that becomes believed ON has no HEAT_OFF posted since (R86). -/
def Work.believeHeat (w : Work) (p : Pocket) (level : Option Nat) : Work :=
  w.onLink p fun l =>
    { l with heatBelieved := level, lastLevel := level <|> l.lastLevel,
             heatOffPosted := if level.isSome && l.heatBelieved.isNone then false else l.heatOffPosted }

/-! ### Heat reservations -/

/-- The wait list of a supply phase. -/
def State.waitList (s : State) (x : SupplyPhase) : List Pocket :=
  match x with
  | .a => s.heat.waitA | .b => s.heat.waitB | .c => s.heat.waitC

/-- The wait list of a supply phase replaced. -/
def Work.setWaitList (w : Work) (x : SupplyPhase) (l : List Pocket) : Work :=
  match x with
  | .a => { w with heat := { w.heat with waitA := l } }
  | .b => { w with heat := { w.heat with waitB := l } }
  | .c => { w with heat := { w.heat with waitC := l } }

/-- Whether `p` holds a heat reservation (R126). -/
def State.hasReservation (s : State) (p : Pocket) : Bool := (s.heat.reserved[p]).isSome

/-- The reserved sum of a supply phase: the draws of the reservations on it (R126). -/
def State.reservedSum (s : State) (x : SupplyPhase) : Nat :=
  ((allPockets.filter fun p => s.phaseOf p == x).map fun p => (s.heat.reserved[p]).getD 0).sum

/-- The reservation of `p` is released; the wait lists are then to be served (R129, R131). -/
def Work.releaseReservation (w : Work) (p : Pocket) : Work :=
  if w.hasReservation p then
    { w with heat := { w.heat with reserved := upd w.heat.reserved p none }, serve := true }
  else w

/-- The entry of `p` leaves its phase's wait list; a removal from the head is followed by serving (R130). -/
def Work.leaveWaitList (w : Work) (p : Pocket) : Work :=
  let l := w.waitList (w.phaseOf p)
  if l.contains p then
    let w' := w.setWaitList (w.phaseOf p) (l.filter (· != p))
    { w' with serve := w'.serve || l.head? == some p }
  else w

/-- A pocket loses its reservation or its place in the wait list (R129, R130). -/
def Work.releaseHeat (w : Work) (p : Pocket) : Work := (w.releaseReservation p).leaveWaitList p

/-! ### Start requests and slots -/

/-- The level of the request of `p` in the set (R112). -/
def State.request (s : State) (p : Pocket) : Option Nat := s.arb.requests[p]

/-- The request of `p` set or removed. -/
def Work.setRequest (w : Work) (p : Pocket) (x : Option Nat) : Work :=
  { w with arb := { w.arb with requests := upd w.arb.requests p x } }

/-- The slot `p` holds (R121). -/
def State.slotOf (s : State) (p : Pocket) : Option Slot := s.arb.slots.find? (·.pocket == p)

/-- The slot of `p` changed. -/
def Work.onSlot (w : Work) (p : Pocket) (f : Slot → Slot) : Work :=
  { w with arb := { w.arb with slots := w.arb.slots.map fun x => if x.pocket = p then f x else x } }

/-- The slot of `p` released; a grant is then evaluated (R119). -/
def Work.releaseSlot (w : Work) (p : Pocket) : Work :=
  { w with arb := { w.arb with slots := w.arb.slots.filter (·.pocket != p) },
           grant := w.grant || (w.slotOf p).isSome }

/-- A start request is made for `p`: carried on the slot it holds (R121), merged into its request at the higher level,
or joined to the set (R112). A request that joins or rises is followed by an evaluation (R119). -/
def Work.makeRequest (w : Work) (p : Pocket) (level : Nat) : Work :=
  match w.slotOf p with
  | some _ => w.onSlot p fun x => { x with carried := some (max level (x.carried.getD 0)) }
  | none =>
    match w.request p with
    | some old => if old < level then { w.setRequest p (some level) with grant := true } else w
    | none => { w.setRequest p (some level) with grant := true }

/-- The request of `p` leaves the set without a grant, and a level carried on its slot is dropped (R114, R121). -/
def Work.removeRequest (w : Work) (p : Pocket) : Work :=
  (w.setRequest p none).onSlot p fun x => { x with carried := none }

/-- The level of a request made for the record of `p`: its resume level while PENDING or RUNNING, else `other` (R16,
R21, R73, R113). -/
def State.requestLevel (s : State) (p : Pocket) (other : Nat) : Nat :=
  match s.ctx p with
  | some c => if c.fast.status = .none then other else c.fast.level.getD other
  | none => other

/-! ### The link queue -/

/-- A link entry of pocket `p`. -/
def Entry.isFor (e : Entry) (p : Pocket) : Bool := e.pocket == some p

/-- The entry whose exchange is under way. -/
def State.inFlight (s : State) : Option Entry := s.link.queue.find? (·.state == .inFlight)

/-- Whether an entry of `kind` is queued for `p`. -/
def State.queued (s : State) (p : Pocket) (kind : CommandKind) : Bool :=
  s.link.queue.any fun e => e.isFor p && e.kind == kind

/-- Whether an UNSENT entry of `kind` is queued for `p`. -/
def State.unsent (s : State) (p : Pocket) (kind : CommandKind) : Bool :=
  s.link.queue.any fun e => e.isFor p && e.kind == kind && e.state == .unsent

/-- The entries of `p`. -/
def State.entryCount (s : State) (p : Pocket) : Nat := (s.link.queue.filter (·.isFor p)).length

/-- Whether a HEAT_ON at the desired level is queued; one whose level is still to be read will carry that level. -/
def State.heatOnQueued (s : State) (p : Pocket) (level : Option Nat) : Bool :=
  s.link.queue.any fun e => e.isFor p && e.kind == .heatOn && (e.level.isNone || level.isNone || e.level == level)

/-! ### What convergence compares (R96) -/

/-- STOP is called for: the motor is not desired and is believed RUNNING or has a RUN queued. -/
def State.wantsStop (s : State) (p : Pocket) : Bool :=
  !s.motorDesired p && ((s.pocketLink p).motorBelieved || s.queued p .run)

/-- RUN is called for: the motor is desired and believed STOPPED, the RUN authority is held and no RUN is queued. -/
def State.wantsRun (s : State) (p : Pocket) : Bool :=
  s.motorDesired p && !(s.pocketLink p).motorBelieved && (s.pocketLink p).runAuthority && !s.queued p .run

/-- HEAT_OFF is called for: the heat is not desired and is believed ON or has a HEAT_ON queued. A heat that was lost with
its motor is turned off as if it were still believed ON, unless it is desired again (R106). -/
def State.wantsHeatOff (s : State) (p : Pocket) : Bool :=
  !s.heatDesired p && ((s.pocketLink p).heatBelieved.isSome || s.queued p .heatOn || (s.pocketLink p).heatLost)

/-- The desired heat level of `p`, as far as it is known (R20, R22). -/
def State.desiredLevel (s : State) (p : Pocket) : Option Nat := (s.ctx p).bind (·.heatLevel)

/-- The heat is desired and has its reservation, and no HEAT_ON at its level is queued. -/
def State.heatOpen (s : State) (p : Pocket) : Bool :=
  s.heatDesired p && s.hasReservation p && !s.heatOnQueued p (s.desiredLevel p)

/-- HEAT_ON is called for: the heat is believed OFF, or ON at another level than the one known. -/
def State.wantsHeatOn (s : State) (p : Pocket) : Bool :=
  s.heatOpen p &&
    match (s.pocketLink p).heatBelieved, s.desiredLevel p with
    | none, _ => true
    | some _, none => false
    | some b, some x => b != x

/-- The level of a heat that is believed ON is not known yet, and is read before it is compared (R22). -/
def State.wantsLevel (s : State) (p : Pocket) : Bool :=
  s.heatOpen p && (s.pocketLink p).heatBelieved.isSome && (s.desiredLevel p).isNone

/-- Convergence acts for `p`: in ACTIVE and for an ONLINE pocket. -/
def State.converges (s : State) (p : Pocket) : Bool := s.part == .active && (s.pocketLink p).state == .online

/-- A command of convergence for `p` is held back and waits for room (R93): it is called for and is not in the queue. -/
def State.heldBack (s : State) (p : Pocket) : Bool :=
  s.converges p &&
    ((s.wantsStop p && !s.queued p .stop) || s.wantsRun p || (s.wantsHeatOff p && !s.queued p .heatOff) || s.wantsHeatOn p)

/-- The pockets that wait for room (R93). -/
def State.waiting (s : State) : Mask := allPockets.foldl (fun m p => m.put p (s.heldBack p)) 0

/-! ### Entries that leave the queue -/

/-- The link queue replaced. -/
def Work.setQueue (w : Work) (q : List Entry) : Work := { w with link := { w.link with queue := q } }

/-- The pockets of some entries, added to a set. -/
def entryPockets (es : List Entry) (m : Mask) : Mask :=
  match es with
  | [] => m
  | e :: r =>
    match e.pocket with
    | some p => entryPockets r (m.put p true)
    | none => entryPockets r m

/-- The re-poll time of an open window begins when the last entry of its pocket has left the queue (R156). -/
def PollWindow.afterRemoval (x : PollWindow) (left stay : List Entry) : PollWindow :=
  if left.any (Entry.isFor · x.pocket) && !stay.any (Entry.isFor · x.pocket) then { x with repollMs := some Config.repollMs }
  else x

/-- Latch seen is cleared with each CLEAR_DOOR that leaves the queue (R107). -/
def Work.clearLatchSeen (w : Work) (left : List Entry) : Work :=
  match left with
  | [] => w
  | e :: r =>
    match e.pocket, e.kind with
    | some p, .clearDoor => (w.onLink p fun l => { l with latchSeen := false }).clearLatchSeen r
    | _, _ => w.clearLatchSeen r

/-- Whether the queue, of which `stay` is what stays, drops below its limit (R96). -/
def State.dropsBelow (s : State) (stay : List Entry) : Bool :=
  Config.linkQueueMax ≤ s.link.queue.length && stay.length < Config.linkQueueMax

/-- The entries `left` have left the queue, and `stay` is what stays. The pockets that lost one, and all pockets when the
queue drops below its limit, are to be converged (R96); the commands that were held back for that limit may then join, for
the pockets that waited before the removal (R93). -/
def Work.leave (w : Work) (left stay : List Entry) : Work :=
  if left.isEmpty then w
  else
    let w' : Work :=
      { w.setQueue stay with
        gone := entryPockets left w.gone
        anyGone := true
        drop := w.drop || w.dropsBelow stay
        room := if w.dropsBelow stay then some (w.room.getD 0 ||| w.waiting) else w.room
        plan := { w.plan with window := w.plan.window.map fun x => x.afterRemoval left stay } }
    w'.clearLatchSeen left

/-- Entries leave the queue. -/
def Work.dropEntries (w : Work) (out : Entry → Bool) : Work :=
  w.leave (w.link.queue.filter out) (w.link.queue.filter fun e => !(out e))

/-- The list without its last entry that satisfies `f`. -/
def dropLast {α : Type} (f : α → Bool) (l : List α) : List α :=
  match l with
  | [] => []
  | x :: r => if r.any f then x :: dropLast f r else if f x then r else x :: r

/-- The newest entry that satisfies `f`, if there is one, leaves the queue. -/
def Work.dropNewest (w : Work) (f : Entry → Bool) : Work :=
  w.leave (w.link.queue.reverse.find? f).toList (dropLast f w.link.queue)

/-- A new entry (R92). -/
def Entry.fresh (p : Option Pocket) (kind : CommandKind) : Entry :=
  { pocket := p, kind := kind, level := none, attempts := 0, silent := 0, state := .unsent }

/-- Whether a command of `kind` can join or be merged for `p` (R93). -/
def State.admits (s : State) (p : Pocket) (kind : CommandKind) : Bool :=
  s.unsent p kind || (s.link.queue.length < Config.linkQueueMax && s.entryCount p < Config.perPocketMax)

/-- A command joins the queue at its tail, or is merged into an UNSENT entry of its kind (R93); the caller has tested
`admits`. -/
def Work.join (w : Work) (p : Pocket) (kind : CommandKind) : Work :=
  if w.unsent p kind then w else w.setQueue (w.link.queue ++ [Entry.fresh (some p) kind])

/-! ### SAFE (R94) -/

/-- Whether an entry is an UNSENT one of `kind`. -/
def Entry.waits (e : Entry) (kind : CommandKind) : Bool := e.kind == kind && e.state == .unsent

/-- A probe of an OFFLINE pocket that was removed to make room for a SAFE is owed again, as one refused for a limit is
(R105). DESIGN CHOICE: log entry 55. -/
def Work.oweProbe (w : Work) (e : Option Entry) : Work :=
  match e.bind (·.pocket) with
  | some q => if (w.pocketLink q).state = .offline then w.onLink q fun l => { l with probeOwed := true } else w
  | none => w

/-- Room is made in a full queue: the newest UNSENT POLL of any pocket leaves it, and failing that the newest UNSENT
CLEAR_DOOR (R94). -/
def Work.makeRoom (w : Work) : Work :=
  if w.link.queue.length < Config.linkQueueMax then w
  else
    match w.link.queue.reverse.find? (·.waits .poll) with
    | some e => (w.dropNewest (·.waits .poll)).oweProbe (some e)
    | none => w.dropNewest (·.waits .clearDoor)

/-- A SAFE purges the UNSENT and WAIT_RETRY entries of its pocket and joins at the head, making room if it must; failing
that it is owed. One that is UNSENT already takes the new one in (R94). -/
def Work.putSafe (w : Work) (p : Pocket) : Work :=
  let merged := w.unsent p .safe
  let w := w.dropEntries fun e => e.isFor p && e.state != .inFlight && !(e.kind == .safe && e.state == .unsent)
  if merged then w
  else
    let w := w.makeRoom
    if w.link.queue.length < Config.linkQueueMax then
      (w.setQueue (Entry.fresh (some p) .safe :: w.link.queue)).onLink p fun l => { l with safeOwed := false }
    else w.onLink p fun l => { l with safeOwed := true }

/-- Whether the link acts on link states: in ACTIVE and PLAN (R110, R111). -/
def State.linkActs (s : State) : Bool := s.part == .active || s.part == .plan

/-- The SAFEs that are owed join, lowest pocket first (R93, R94). -/
def Work.admitSafes (w : Work) : Work :=
  if w.linkActs then allPockets.foldl (fun w p => if (w.pocketLink p).safeOwed then w.putSafe p else w) w else w

/-- Entries leave the queue, and the SAFEs that were owed join as soon as one has left (R94). -/
def Work.removeEntries (w : Work) (out : Entry → Bool) : Work :=
  if w.link.queue.any out then (w.dropEntries out).admitSafes else w

/-- SAFE is posted for a pocket in FAULT; what its purge left room for then joins (R94). -/
def Work.postSafe (w : Work) (p : Pocket) : Work := (w.putSafe p).admitSafes

/-! ### Drive commands -/

/-- STOP is posted if it is admitted: the UNSENT RUN entries of the pocket leave, and its motor is no longer confirmed
(R86, R93, R94). -/
def Work.postStop (w : Work) (p : Pocket) : Work :=
  if w.admits p .stop then
    ((w.join p .stop).removeEntries fun e => e.isFor p && e.kind == .run && e.state == .unsent).onLink p
      fun l => { l with stopPosted := true }
  else w

/-- HEAT_OFF is posted if it is admitted: the UNSENT HEAT_ON entries of the pocket leave, its heat is no longer
confirmed, and its reservation is released (R86, R94, R96). -/
def Work.postHeatOff (w : Work) (p : Pocket) : Work :=
  if w.admits p .heatOff then
    (((w.join p .heatOff).removeEntries fun e => e.isFor p && e.kind == .heatOn && e.state == .unsent).onLink p
      fun l => { l with heatOffPosted := true, heatLost := false }).releaseReservation p
  else w

/-- HEAT_ON is formed if it is admitted. Its level is obtained by a static read (R22), so the entry waits for that
read; an UNSENT HEAT_ON has its level replaced in place (R93). DEDUCED: log entry 9. -/
def Work.postHeatOn (w : Work) (p : Pocket) : Work :=
  if w.admits p .heatOn then
    ((w.join p .heatOn).setQueue ((w.join p .heatOn).link.queue.map fun e =>
      if e.isFor p && e.kind == .heatOn && e.state == .unsent then { e with level := none } else e)).demandRead p .heatLevel
  else w

/-- RUN is posted if it is admitted (R97). -/
def Work.postRun (w : Work) (p : Pocket) : Work := if w.admits p .run then w.join p .run else w

/-- The motor channel of convergence (R96). -/
def Work.convergeMotor (w : Work) (p : Pocket) : Work :=
  if w.wantsStop p then w.postStop p else if w.wantsRun p then w.postRun p else w

/-- The heat channel of convergence for a heat that is not to be turned off (R96). -/
def Work.convergeLevel (w : Work) (p : Pocket) : Work :=
  if w.wantsHeatOn p then w.postHeatOn p else if w.wantsLevel p then w.demandRead p .heatLevel else w

/-- The heat channel of convergence (R96). A heat that was lost with its motor and is desired again is lost no longer
(R106). -/
def Work.convergeHeat (w : Work) (p : Pocket) : Work :=
  if w.wantsHeatOff p then w.postHeatOff p
  else if w.heatDesired p then
    Work.convergeLevel (if (w.pocketLink p).heatLost then w.onLink p fun l => { l with heatLost := false } else w) p
  else w

/-- One run of convergence for `p`, where it acts (R96). -/
def Work.convergeOne (w : Work) (p : Pocket) : Work :=
  if w.converges p then (w.convergeMotor p).convergeHeat p else w

/-- POLL is posted if it is admitted (R93). -/
def Work.postPoll (w : Work) (p : Pocket) : Work := if w.admits p .poll then w.join p .poll else w

/-- CLEAR_DOOR is posted and latch seen set; one refused for a limit leaves latch seen clear (R107). -/
def Work.postClearDoor (w : Work) (p : Pocket) : Work :=
  if w.admits p .clearDoor then (w.join p .clearDoor).onLink p fun l => { l with latchSeen := true } else w

/-- A probe of an OFFLINE pocket is posted under the limits of R93; one refused is owed (R105). -/
def Work.postProbe (w : Work) (p : Pocket) : Work :=
  if w.admits p .poll then (w.join p .poll).onLink p fun l => { l with probeOwed := false }
  else w.onLink p fun l => { l with probeOwed := true }

/-- The probes that are owed are posted, lowest pocket first (R93, R105). -/
def Work.admitProbes (w : Work) : Work :=
  if w.part = .active then
    allPockets.foldl (fun w p => if (w.pocketLink p).probeOwed && (w.pocketLink p).state == .offline then w.postProbe p else w) w
  else w

/-- Convergence runs for the pockets that wait and satisfy `f`, lowest first (R93). -/
def Work.convergeWaiting (w : Work) (m : Mask) (f : Pocket → Bool) : Work :=
  allPockets.foldl (fun (w : Work) p => if m.has p && f p then w.convergeOne p else w) w

/-- When room has appeared, the commands held back for it join before any other: those of convergence, for the pockets that
wait, then the probes, each lowest pocket first (R93). -/
def Work.admitHeld (w : Work) : Work :=
  match w.room with
  | some m => (Work.convergeWaiting { w with room := none } m fun _ => true).admitProbes
  | none => w

/-- The commands held back join before an event acts on pocket `p`, the end of whose exchange made room for them. When `p`
waits too, its place among them is where the event converges it, so the pockets below it go first and the others follow
that convergence (R93). DEDUCED: log entry 27. -/
def Work.admitHeldBefore (w : Work) (p : Pocket) : Work :=
  match w.room with
  | some m =>
    if m.has p then
      let w := Work.convergeWaiting { w with room := none } m (·.val < p.val)
      { w with room := some (m ||| w.room.getD 0) }
    else w.admitHeld
  | none => w

/-- Convergence for `p`, and what a purge of it has made room for (R93, R94, R96). -/
def Work.converge (w : Work) (p : Pocket) : Work := (w.convergeOne p).admitHeld

/-- The RUN authority of `p` ends other than by an ACK: its UNSENT RUN entry is removed (R97). -/
def Work.endAuthority (w : Work) (p : Pocket) : Work :=
  if (w.pocketLink p).runAuthority then
    (w.onLink p fun l => { l with runAuthority := false }).removeEntries
      fun e => e.isFor p && e.kind == .run && e.state == .unsent
  else w

/-- The desired state of `p` is derived again and converged to (R20); a motor that is no longer desired then ends the RUN
authority (R97), whose UNSENT RUN the STOP of convergence has purged (R21, R76). -/
def Work.rederive (w : Work) (p : Pocket) : Work :=
  let w := w.converge p
  if w.motorDesired p then w else w.endAuthority p

/-! ### Broadcasts -/

/-- Every pocket is believed STOPPED and OFF, as when a broadcast SAFE is sent (R86). -/
def Work.believeAllSafe (w : Work) : Work :=
  { w with link := { w.link with pockets := w.link.pockets.map fun l => { l with motorBelieved := false, heatBelieved := none } } }

/-- The list with its first element that satisfies `f` changed by `g`. -/
def onFirst {α : Type} (f : α → Bool) (g : α → α) (l : List α) : List α :=
  match l with
  | [] => []
  | x :: r => if f x then g x :: r else x :: onFirst f g r

/-- An entry's frame is sent: it is IN_FLIGHT and the link listens for one reply window (R84, R95).
DESIGN CHOICE: log entry 35. -/
def Work.sendEntry (w : Work) (isIt : Entry → Bool) (e : Entry) : Work :=
  { w with link := { w.link with
      queue := onFirst isIt (fun x => { x with state := .inFlight }) w.link.queue
      windowMs := Config.replyWindowMs
      sent := e.bytes } }

/-- A waiting broadcast is sent once the link is free, and every pocket is believed STOPPED and OFF (R86, R111). -/
def Work.sendBroadcast (w : Work) : Work :=
  if w.inFlight.isNone && w.link.queue.any (·.pocket.isNone) then
    (w.sendEntry (·.pocket.isNone) (Entry.fresh none .safe)).believeAllSafe
  else w

/-- A broadcast SAFE joins at the head of the queue; it is sent at once, or when the exchange under way has ended (R110,
R111). -/
def Work.broadcastSafe (w : Work) : Work := (w.setQueue (Entry.fresh none .safe :: w.link.queue)).sendBroadcast

/-! ### Reservations and grants that post commands -/

/-- A reservation is made for `p` with its draw, and convergence posts HEAT_ON (R128). -/
def Work.reserve (w : Work) (p : Pocket) : Work :=
  Work.converge { w with heat := { w.heat with reserved := upd w.heat.reserved p (some (w.draw p)) } } p

/-- One wait list is served in strict order while its head fits (R131). -/
def Work.servePhase (x : SupplyPhase) : Nat → Work → Work
  | 0, w => w
  | n + 1, w =>
    match w.waitList x with
    | p :: r =>
      if w.reservedSum x + w.draw p ≤ w.budget x then Work.servePhase x n ((w.setWaitList x r).reserve p) else w
    | [] => w

/-- Every wait list is served, unless the throttle is active (R131): A, then B, then C. DESIGN CHOICE: log entry 57. -/
def Work.serveLists (w : Work) : Work :=
  if w.sag.active ∨ w.part ≠ .active then w
  else Work.servePhase .c 32 (Work.servePhase .b 32 (Work.servePhase .a 32 w))

/-- Whether the start gap has passed since the last grant (R119). -/
def State.gapMet (s : State) : Bool :=
  match s.arb.sinceGrant with
  | none => true
  | some ms => s.setting 8 * 100 ≤ ms

/-- Whether the request of `p` is eligible (R115). -/
def State.eligible (s : State) (p : Pocket) : Bool :=
  (s.request p).isSome && s.arb.mask.has p && (s.pocketLink p).state == .online

/-- The winner of a grant: the highest level, then the lowest pocket number (R120). -/
def State.winner (s : State) : Option (Pocket × Nat) :=
  allPockets.foldl (fun best p =>
    match s.request p, best with
    | some l, some (_, b) => if s.eligible p && b < l then some (p, l) else best
    | some l, none => if s.eligible p then some (p, l) else none
    | none, _ => best) none

/-- Whether the arbiter may make a grant (R119). -/
def State.mayGrant (s : State) : Bool :=
  s.arb.slots.length < s.setting 7 && s.gapMet && !s.sag.active && s.part == .active

/-- Whether the record of `p` is in CREASE and a grant is to begin a tumble of it; one that is tumbling is restarted
(R73, R75). -/
def Context.awaitsTumble (c : Context) : Bool :=
  c.fast.phase == .crease && !(c.fast.progress.map (·.tumbling)).getD false

/-- A grant to `p` at its level, as one step (R120), by which the desired motor of a record in CREASE becomes running
(R73). -/
def Work.grantTo (w : Work) (p : Pocket) (level : Nat) : Work :=
  let slot : Slot := { pocket := p, stage := .awaitAck, level := level, timerMs := w.setting 10 * 100, carried := none, doorRefused := false }
  let w := w.setRequest p none
  let w : Work := { w with arb := { w.arb with slots := w.arb.slots ++ [slot], sinceGrant := some 0 } }
  let w := w.onCtx p fun c => if c.awaitsTumble then { c with tumbleGranted := true } else c
  (w.onLink p fun l => { l with runAuthority := true }).converge p

/-- Grants are made until the conditions of R119 fail; at most one for each slot. -/
def Work.evaluateGrants : Nat → Work → Work
  | 0, w => w
  | n + 1, w =>
    if w.mayGrant then
      match w.winner with
      | some (p, level) => Work.evaluateGrants n (w.grantTo p level)
      | none => w
    else w

/-! ### The end of a command -/

/-- Nothing is owed any more. -/
def Work.debtFree (w : Work) : Work :=
  { w with gone := 0, anyGone := false, drop := false, room := none, serve := false, grant := false }

/-- What a command owes as it ends: what was held back joins; convergence of the pockets an entry of which has left the
queue, of all when it dropped below its limit and, when any has left, the owed probes (R93, R96, R105); then the wait lists
are served and a grant evaluated where that was called for (R119, R131). DEDUCED: log entry 27. -/
def Work.settleOnce (w : Work) : Work :=
  let owed := w.admitHeld
  let w := allPockets.foldl (fun w p => if owed.drop || owed.gone.has p then w.convergeOne p else w) owed.debtFree
  let w := if owed.anyGone then w.admitProbes else w
  let w := if owed.serve then w.serveLists else w
  if owed.grant then Work.evaluateGrants 5 w else w

/-- Whether nothing is owed. -/
def Work.quiet (w : Work) : Bool := !(w.anyGone || w.drop || w.room.isSome || w.serve || w.grant)

/-- What is owed is done, and what that calls for in turn (log entry 27). -/
def Work.settle : Nat → Work → Work
  | 0, w => w
  | n + 1, w => if w.quiet then w else Work.settle n w.settleOnce

/-- A command ends: what it owes is done. -/
def Work.finish (w : Work) : State := (Work.settle 8 w).toState

end Sys2Proof.Machine
end

