-- ==== Sys2Proof/Machine/RecordOps.lean ====
section
/-! DEFINITION. Shared operations of the cycle engine and the crease scheduler (chapters 1 and 4), of changes of link
state (R88, R90) and of heat requests (R127). -/

namespace Sys2Proof.Machine

/-! ### Holds -/

/-- The rank of a hold cause (R13). -/
def HoldCause.rank (x : HoldCause) : Nat :=
  match x with
  | .none => 0 | .resumeAsk => 1 | .door => 2 | .heatFault => 3 | .link => 4 | .damaged => 5

/-- The phases in which a cause is taken (section 1.3); whether a door opening retires the record instead is decided
where it is reported (R10). -/
def HoldCause.appliesIn (x : HoldCause) (ph : Phase) : Bool :=
  match x, ph with
  | .none, _ => false
  | .damaged, _ => true
  | _, .staged => false
  | .door, _ => true
  | .link, .done => false
  | .link, _ => true
  | .heatFault, .heat => true
  | .resumeAsk, .heat => true
  | _, _ => false

/-- A running tumble is cut off: it counts as made and next due is the plan's interval (R78). -/
def cutTumble (interval : Nat) (p : CreaseProgress) : CreaseProgress :=
  if p.tumbling then { p with tumbling := false, nextDue := interval } else p

/-- Fast fields whose resumption has ended: status NONE, class, level and interrupted phase removed (R4, R175). -/
def Fast.endResume (f : Fast) : Fast := { f with status := .none, cls := none, level := none, interrupted := none }

/-- Whether the fast fields of `p` satisfy `f`. -/
def State.recordIs (s : State) (p : Pocket) (f : Fast → Bool) : Bool := ((s.ctx p).map fun c => f c.fast).getD false

/-- The fast fields of a record in CREASE that goes to DONE: its progress is removed, a LINK hold is dropped, and a
resumption that was still under way ends (R77, R175). -/
def Fast.creaseDone (f : Fast) : Fast :=
  { f.endResume with phase := .done, progress := none, hold := if f.hold = .link then .none else f.hold }

/-- A record in CREASE goes to DONE with the effects of R77, but for its PHASE mark and its checkpoint, which the
caller sets where the change is not part of a cool exit (R71). -/
def Work.leaveCrease (w : Work) (p : Pocket) : Work :=
  let link := w.recordIs p (·.hold == .link)
  let resuming := w.recordIs p (·.status != .none)
  let w := w.onCtx p fun c => { c.change Fast.creaseDone with tumbleLeft := none, tumbleGranted := false }
  let w := if link then w.mark .hold p else w
  let w := if resuming then w.mark .resume p else w
  (w.removeRequest p).rederive p

/-- The crease of a record ends and it goes to DONE (R76, R77). -/
def Work.endCrease (w : Work) (p : Pocket) : Work := ((w.leaveCrease p).mark .phase p).demandCheckpoint p

/-- The fast fields of a record that takes a hold cause (R13, R14, R16, R78). -/
def Fast.takeHold (cause : HoldCause) (interval : Nat) (f : Fast) : Fast :=
  let f := if cause = .heatFault ∧ f.status = .pending then f.endResume else f
  { f with hold := cause, progress := f.progress.map (cutTumble interval) }

/-- A hold cause reaches the record of `p`. It is taken in the phases where it applies and unless the present cause
ranks above it; a cause that is already there changes nothing (R13). The request, reservation and wait-list place are
lost, a running tumble is cut, and a record whose last tumble was cut goes to DONE (R14, R78). -/
def Work.takeHold (w : Work) (p : Pocket) (cause : HoldCause) : Work :=
  match w.ctx p with
  | none => w
  | some c =>
    if !cause.appliesIn c.fast.phase || cause.rank ≤ c.fast.hold.rank then w
    else
      let cut := (c.fast.progress.map (·.tumbling)).getD false
      let ended := cause = .heatFault ∧ c.fast.status = .pending
      let last := cut && (c.fast.progress.map (·.remaining)).getD 1 == 0
      let w := w.onCtx p fun c =>
        { c.change (Fast.takeHold cause c.interval) with tumbleLeft := none, tumbleGranted := false }
      let w := w.mark .hold p
      let w := if ended then w.mark .resume p else w
      let w := ((w.removeRequest p).releaseHeat p).rederive p
      if last then w.endCrease p else w.demandCheckpoint p

/-- Makes the start request that a record needs whose hold `cause` has cleared: in HEAT and COOL at once; in CREASE when a
tumble is due, and of a PENDING record when the hold was LINK (R16, R79, R172). DESIGN CHOICE: log entry 54. -/
def Work.requestAfterHold (w : Work) (p : Pocket) (cause : HoldCause) : Work :=
  match w.ctx p with
  | none => w
  | some c =>
    match c.fast.phase with
    | .heat => w.makeRequest p (w.requestLevel p 7)
    | .cool => w.makeRequest p (w.requestLevel p 7)
    | .crease =>
      let due := (c.fast.progress.map fun cp => cp.nextDue == 0 && !cp.tumbling).getD false
      let resumes := cause == .link && c.fast.status == .pending
      if due || resumes then w.makeRequest p (w.requestLevel p 3) else w
    | _ => w

/-- The hold of `p` clears (R15). -/
def Work.clearHold (w : Work) (p : Pocket) : Work :=
  let cause := ((w.ctx p).map (·.fast.hold)).getD .none
  let w := ((w.onFast p fun f => { f with hold := .none }).mark .hold p).demandCheckpoint p
  (w.requestAfterHold p cause).rederive p

/-! ### Phases -/

/-- Whether a REHEAT resumption is still under way, so that leaving HEAT ends it (R175). -/
def Fast.reheating (f : Fast) : Bool := f.status != .none && f.cls == some .reheat

/-- The HEAT exit (R7): the record goes to COOL and loses its heat; its cool length is read, and the checkpoint stands
behind the read (R12, R22, R61). -/
def Work.heatExit (w : Work) (p : Pocket) : Work :=
  let ended := w.recordIs p (·.reheating)
  let w := w.onCtx p fun c =>
    { c.change (fun f => { (if f.reheating then f.endResume else f) with phase := .cool }) with awaitCool := true }
  let w := w.mark .phase p
  let w := if ended then w.mark .resume p else w
  (((w.releaseHeat p).demandRead p .heatExit).demandCheckpoint p).rederive p

/-- The cool exit at a clock step (R8, R71): the record goes to CREASE, its motor is no longer desired, and its options
and crease plan are read. -/
def Work.coolExit (w : Work) (p : Pocket) : Work :=
  let w := (w.onFast p fun f => { f with phase := .crease, progress := none }).mark .phase p
  (((w.removeRequest p).demandRead p .coolExit).demandCheckpoint p).rederive p

/-- Crease progress at entry to CREASE (R71). -/
def freshProgress (c : CreasePlan) : CreaseProgress := ⟨c.tumbles, c.interval, c.window, false⟩

/-- Crease is on when NO_CREASE is not among the options and the effective plan has a tumble (R8, R69). -/
def creaseOn (o : Options) (plan : CreasePlan) : Bool := !o.noCrease && 1 ≤ plan.tumbles

/-- The crease progress of a record in CREASE is set up from the statics read, or the record passes on to DONE when
crease is off, which demands a checkpoint as every such change does (R71, R77). DEDUCED: log entry 14. -/
def Work.setUpCrease (w : Work) (p : Pocket) (x : Statics) : Work :=
  let plan := w.effectivePlan x.plan
  if creaseOn x.options plan then
    w.onCtx p fun c =>
      { c.change (fun f => { f with progress := some (freshProgress plan) }) with
        interval := plan.interval, length := plan.length }
  else (w.leaveCrease p).demandCheckpoint p

/-- What a static read gives is filled in for one of its purposes (R7, R22, R71): a record that has left the phase, or
is gone, is not touched. DEDUCED: log entry 47. -/
def Work.fillRead (w : Work) (p : Pocket) (x : Statics) (why : ReadPurpose) : Work :=
  match w.ctx p with
  | none => w
  | some c =>
    match why with
    | .heatExit =>
      if c.fast.phase = .cool ∧ c.awaitCool then
        let w := w.onCtx p fun c => { c.change (fun f => { f with cool := x.coolLength }) with awaitCool := false }
        if x.coolLength = 0 then
          let w := (w.onFast p fun f => { f with phase := .crease, progress := none }).removeRequest p
          ((w.setUpCrease p x).demandCheckpoint p).rederive p
        else w
      else w
    | .coolExit => if c.fast.phase = .crease ∧ c.fast.progress.isNone then (w.setUpCrease p x).rederive p else w
    | .heatLevel =>
      let w := w.onCtx p fun c => { c with heatLevel := some x.level }
      (w.setQueue (w.link.queue.map fun e =>
        if e.isFor p && e.kind == .heatOn && e.level.isNone then { e with level := some x.level } else e)).rederive p

/-- Whether an operation works from the context of `p`. -/
def StoreOp.worksFor (op : StoreOp) (p : Pocket) : Bool :=
  match op with
  | .checkpoint q | .saveWrite q | .staticRead q _ | .lookupRead q _ | .staticWrite q _ _ | .move q _ _ => q == p
  | _ => false

/-- The context of `p` is dropped with its waiting checkpoint, move and static read (R57); an operation being served keeps
it until it ends. DEDUCED: log entry 19. -/
def Work.dropContext (w : Work) (p : Pocket) : Work :=
  let kept := w.ctx p
  Work.setCtx { w with ctl := { w.ctl with
    queue := w.ctl.queue.filter fun op => !(op.isCheckpointOf p || op.isMoveOf p || op.isReadOf p)
    current := w.ctl.current.map fun r => if r.op.worksFor p && kept.isSome then { r with stash := kept } else r } } p none

/-- The record of `p` is retired (R11): its context is dropped with its waiting operations, its request, reservation
and wait-list place go, and the retire operation is enqueued. A HEAT_ON that waited for its level has lost the read that
would have given it, and leaves the link queue once STOP and HEAT_OFF have been posted (log entry 9). -/
def Work.retireRecord (w : Work) (p : Pocket) (host : Bool) : Work :=
  match w.ctx p with
  | none => w
  | some c =>
    let w := ((((w.dropContext p).mark .retired p).removeRequest p).releaseHeat p).rederive p
    (w.removeEntries fun e => e.isFor p && e.kind == .heatOn && e.level.isNone).enqueue (.retire p c.frame c.pinned host)

/-- A door seen open by a STATUS reply (R6, R10, R80). -/
def Work.doorOpened (w : Work) (p : Pocket) : Work :=
  match w.ctx p with
  | none => w
  | some c =>
    match c.fast.phase with
    | .staged => w
    | .heat => w.takeHold p .door
    | .cool => w.takeHold p .door
    | _ => if w.setting 2 = 1 then w.retireRecord p false else w.takeHold p .door

/-- A door seen closed (R15): it clears a DOOR hold in COOL, CREASE and DONE, and in any phase while PENDING. -/
def Work.doorClosed (w : Work) (p : Pocket) : Work :=
  if w.recordIs p fun f => f.hold == .door && (f.phase == .cool || f.phase == .crease || f.phase == .done || f.status == .pending)
  then w.clearHold p else w

/-! ### Pinned records (R43) -/

/-- The heat level of a record whose word 1 can no longer be read is the safe one from then on (R20, R22, R42). -/
def Work.levelLost (w : Work) (p : Pocket) : Work :=
  (w.onCtx p fun c => { c with heatLevel := c.heatLevel.map fun _ => w.safeStatics.level }).rederive p

/-- The record of `p` becomes pinned, with a STORE event (R43), and takes the safe heat level if its own is lost; one that
is pinned stays so. -/
def Work.pin (w : Work) (p : Pocket) : Work :=
  match w.ctx p with
  | none => w
  | some c =>
    if c.pinned then w
    else
      let w := (w.onCtx p fun c => { c with pinned := true }).markPart .store
      if w.readable (frameWord w.geometry c.frame 1) then w else w.levelLost p

/-! ### Resumption -/

/-- The highest exhaust reading at which a COOL_FIRST load has cooled enough (R166, R173). -/
def State.exitThreshold (s : State) : Nat := s.setting 20 - s.setting 21

/-- The exit condition of a COOL_FIRST record (R173). -/
def State.coolFirstExits (s : State) (p : Pocket) : Bool :=
  s.recordIs p (fun f => f.phase == .cool && f.hold == .none && f.status == .running && f.cls == some .coolFirst && f.cool == 0)
    && match (s.pocketLink p).exhaust with
      | none => true
      | some x => x ≤ s.exitThreshold

/-- The exit of a COOL_FIRST resumption (R174): a DAMAGED hold, HEAT held RESUME_ASK, or the cool exit. -/
def Work.coolFirstExit (w : Work) (p : Pocket) : Work :=
  match w.ctx p with
  | none => w
  | some c =>
    let w := (w.onFast p Fast.endResume).mark .resume p
    if c.fast.level = some 15 then w.takeHold p .damaged
    else if c.fast.interrupted = some .heat then
      ((((w.onFast p fun f => { f with phase := .heat, hold := .resumeAsk }).mark .phase p).mark .hold p).removeRequest p
        |>.demandCheckpoint p).rederive p
    else w.coolExit p

/-! ### Heat requests -/

/-- A heat request for `p` (R127). -/
def Work.heatRequest (w : Work) (p : Pocket) : Work :=
  let x := w.phaseOf p
  if w.hasReservation p || (w.waitList x).contains p then w
  else if w.draw p = 0 then w.reserve p
  else if w.budget x < w.draw p then (w.recordFault p .heatFault).takeHold p .heatFault
  else if !w.sag.active && (w.waitList x).isEmpty && w.reservedSum x + w.draw p ≤ w.budget x then w.reserve p
  else w.setWaitList x (w.waitList x ++ [p])

/-! ### Changes of link state -/

/-- The link state of `p` changed, with its LINK event (R87); SAFE owed ends when FAULT is left (R94). -/
def Work.setLinkState (w : Work) (p : Pocket) (x : LinkState) (cause : Option FaultCause) : Work :=
  if (w.pocketLink p).state = x then w
  else
    (w.onLink p fun l =>
      { l with state := x, cause := cause, safeOwed := if x = .fault then l.safeOwed else false }).mark .link p

/-- A good reply from `p` brings an UNKNOWN or OFFLINE pocket ONLINE (R88); in ACTIVE a LINK hold clears where R15
allows. A probe is owed no more (log entry 76). -/
def Work.comeOnline (w : Work) (p : Pocket) : Work :=
  let st := (w.pocketLink p).state
  if st = .unknown ∨ st = .offline then
    let w := (w.setLinkState p .online none).onLink p fun l => { l with offlineMs := none, probeOwed := false }
    if w.part = .active then
      let w : Work := { w with grant := w.grant || (w.request p).isSome }
      if w.recordIs p fun f => f.hold == .link && (f.phase == .cool || f.phase == .crease || f.status == .pending)
      then w.clearHold p else w.rederive p
    else w
  else w

/-- The entries of a pocket that loses its link leave the queue, and what the link keeps of them is cleared (R90, R106). -/
def Work.clearLink (w : Work) (p : Pocket) : Work :=
  (w.removeEntries fun e => e.isFor p).onLink p fun l =>
    { l with startAttempts := 0, latchSeen := false, heatLost := false }

/-- The effects of R90 on the arbiter, the heat budget unit and the record, which OFFLINE and FAULT share; those on records
are not applied in PLAN (R110). -/
def Work.loseLink (w : Work) (p : Pocket) (cause : FaultCause) : Work :=
  let w := (((w.releaseHeat p).removeRequest p).releaseSlot p).endAuthority p
  if w.part = .active then (w.recordFault p cause).takeHold p .link else w

/-- A pocket goes to OFFLINE (R89, R90); one in FAULT stays there. -/
def Work.goOffline (w : Work) (p : Pocket) : Work :=
  if (w.pocketLink p).state = .fault then w
  else
    let w := (w.setLinkState p .offline none).onLink p fun l => { l with offlineMs := some Config.offlineProbeMs }
    (w.clearLink p).loseLink p .silent

/-- A pocket goes to FAULT, and a SAFE is enqueued for it (R90); one in FAULT stays there with its first cause. The SAFE
joins as soon as the pocket's entries have left, before any command that was held back (R93, R94). DESIGN CHOICE: log
entry 66. -/
def Work.goFault (w : Work) (p : Pocket) (cause : FaultCause) : Work :=
  if (w.pocketLink p).state = .fault then w
  else
    let w := (w.setLinkState p .fault (some cause)).onLink p fun l => { l with offlineMs := none, probeOwed := false }
    ((w.clearLink p).postSafe p).loseLink p cause

end Sys2Proof.Machine
end

