-- ==== Sys2Proof/Machine/Planner.lean ====
section
/-! DEFINITION. The resume planner's arithmetic and decisions (sections 8.2 to 8.4), as functions of one record's
image and inputs. -/

namespace Sys2Proof.Machine

/-! ### Decay (R161, R162) -/

/-- The table of R161: 2 to the power −k/8 in units of 1/65,536. -/
def decayTable (k : Nat) : Nat :=
  match k with
  | 0 => 65536 | 1 => 60097 | 2 => 55109 | 3 => 50535 | 4 => 46341 | 5 => 42495 | 6 => 38968 | _ => 35734

/-- The decay factor F for an outage time (R161); UNKNOWN is `none`. -/
def decayFactor (t : Option Nat) (halfLife : Nat) : Nat :=
  match t with
  | none => 65536
  | some t =>
    let n := 8 * t / halfLife
    if 17 ≤ n / 8 then 0 else decayTable (n % 8) / 2 ^ (n / 8)

/-- ⌈x / d⌉. -/
def ceilDiv (x d : Nat) : Nat := (x + d - 1) / d

/-- The estimate T_est (R162). -/
def estimate (ts ta factor : Nat) : Nat := ta + ceilDiv ((ts - ta) * factor) 65536

/-- T_res: the estimate, or a measurement above it (R162). -/
def residual (est : Nat) (meas : Option Nat) : Nat := max est (meas.getD 0)

/-- The reheat allowance A (R163). -/
def allowance (fixedTime : Bool) (t : Option Nat) (rate most ts est : Nat) : Nat :=
  if fixedTime || t.isNone then 0 else min most (rate * (ts - est))

/-! ### One record -/

/-- What the planner knows when it plans one record. -/
structure PlanInputs where
  settings : Settings
  geometry : Geometry
  mark : OutageMark
  tOut : Option Nat
  image : Image
  first : Option StatusReport
  deriving DecidableEq, Repr

/-- The outcome of a record: it is retired, or a context is committed with these fast fields and with the interval
and tumble length of its effective plan. -/
inductive PlanOutcome where
  | retire
  | commit (fast : Fast) (interval length : Nat)
  deriving DecidableEq, Repr

/-- Whether word `k` of the image could be read. -/
def Image.has (x : Image) (k : Nat) : Bool := !x.bad.contains k

/-- A word that holds `r` could be read, or the geometry has none. -/
def Image.hasRole (x : Image) (g : Geometry) (r : Role) : Bool := !x.bad.any fun k => roleOf g k == r

/-- The image is DAMAGED: write-open set, or frame word 1 or 2 uncorrectable (R53, R157). -/
def Image.damaged (x : Image) : Bool := (x.has 0 && x.data.header.writeOpen) || !x.has 1 || !x.has 2

/-- The image is for move: a word could not be read and it is not DAMAGED (R51, R53). DEDUCED: log entry 22. -/
def Image.forMove (x : Image) : Bool := !x.damaged && !x.bad.isEmpty

/-- The commit is made as a move: the frame is for move, or DAMAGED with an unreadable word that its fast fields do not fill.
R53 names an unreadable static word of a DAMAGED frame; any other word but word 2 is taken with it.
DESIGN CHOICE: log entry 49. -/
def Image.commitMove (x : Image) : Bool := x.bad.any (· != 2)

/-- The plan stamp of the image, absent when its word could not be read (R158). -/
def Image.stamp (x : Image) (g : Geometry) : Option PlanStamp := if x.hasRole g .stamp then x.data.stamp else none

/-- The generation of the image (R56). -/
def Image.gen (x : Image) : Nat := x.data.header.gen

/-- The static fields of the image, with safe values for the lost ones (R158). -/
def PlanInputs.statics (i : PlanInputs) : Statics :=
  let d := i.image.data
  let ok := i.image.has 1
  { level := if ok then d.level else 1
    options := if ok then d.options else ⟨true, false, false⟩
    coolLength := if ok then d.coolLength else i.settings.item 22
    plan := if i.image.hasRole i.geometry .plan then d.plan else none }

/-- The effective crease plan of the image (R69). -/
def PlanInputs.plan (i : PlanInputs) : CreasePlan :=
  match i.geometry, i.statics.plan with
  | .standard, some c => c
  | _, _ => ⟨i.settings.item 14, i.settings.item 15, i.settings.item 16, i.settings.item 17⟩

/-- The image's plan stamp carries the mark's sequence (R157, R159). -/
def PlanInputs.stampMatches (i : PlanInputs) : Bool :=
  i.mark.valid && (i.image.stamp i.geometry).map (·.seq) == some i.mark.seq

/-- The image is current (R157). -/
def PlanInputs.current (i : PlanInputs) : Bool :=
  !i.image.damaged && !i.image.forMove && i.mark.valid && (i.image.data.header.saved || i.stampMatches)

/-- The outage time t of the record (R159). -/
def PlanInputs.time (i : PlanInputs) : Option Nat :=
  if i.stampMatches then i.tOut.map (· - ((i.image.stamp i.geometry).map (·.base)).getD 0) else i.tOut

/-- The age of a stale image (R159); UNKNOWN for an image for move. -/
def PlanInputs.age (i : PlanInputs) : Option Nat :=
  if i.image.forMove || !i.mark.valid then none else some (i.mark.uptime - i.image.data.header.stamp)

/-- t_eff of a record in CREASE (R159). -/
def PlanInputs.timeEff (i : PlanInputs) : Option Nat :=
  if i.current then i.time
  else
    match i.time, i.age with
    | some t, some a => some (t + a)
    | _, _ => none

/-- The fast fields of the image, those of unreadable words as R158 gives. -/
def PlanInputs.fast (i : PlanInputs) : Fast :=
  let f := i.image.data.fast
  let f := if i.image.hasRole i.geometry .progress then f else { f with progress := none, outage := 255 }
  if i.image.hasRole i.geometry .extra then f else { f with extra := 0, lastFault := none }

/-- A DAMAGED resumption: the image is DAMAGED, or carries COOL_FIRST at level 15 (R165). -/
def PlanInputs.damagedRecord (i : PlanInputs) : Bool :=
  i.image.damaged || (i.fast.cls == some .coolFirst && i.fast.level == some 15)

/-- The heat ceiling of a heat level (R160). -/
def PlanInputs.ceiling (i : PlanInputs) (level : Nat) : Nat :=
  match level with
  | 1 => i.settings.item 25 | 2 => i.settings.item 26 | _ => i.settings.item 27

/-- The saved load temperature T_s (R160, R165). -/
def PlanInputs.savedTemp (i : PlanInputs) : Nat :=
  if i.damagedRecord then (if i.image.has 2 then i.fast.temp else 200)
  else if !i.current && i.fast.phase == .heat then max i.fast.temp (i.ceiling i.statics.level)
  else i.fast.temp

/-- The measured temperature T_meas (R160). -/
def PlanInputs.measured (i : PlanInputs) : Option Nat :=
  i.first.bind fun r => if 255 ≤ r.exhaust then none else some (min 200 r.exhaust)

/-- The door input (R160). -/
def PlanInputs.door (i : PlanInputs) : Bool := (i.first.map fun r => r.latch || r.doorOpen).getD false

/-- T_est of the record (R161, R162). -/
def PlanInputs.est (i : PlanInputs) : Nat :=
  estimate i.savedTemp (i.settings.item 18) (decayFactor i.time (i.settings.item 19))

/-- T_res of the record (R162). -/
def PlanInputs.res (i : PlanInputs) : Nat := residual i.est i.measured

/-- The allowance of the record (R163). -/
def PlanInputs.grantedTime (i : PlanInputs) : Nat :=
  allowance i.statics.options.fixedTime i.time (i.settings.item 23) (i.settings.item 24) i.savedTemp i.est

/-- Fast fields with the allowance applied (R163); a COMPACT record keeps no extra seconds (R1). -/
def PlanInputs.withAllowance (i : PlanInputs) (f : Fast) : Fast :=
  { f with
    heat := min Config.heatMax (f.heat + i.grantedTime)
    extra := match i.geometry with
      | .standard => min Config.extraMax (f.extra + i.grantedTime)
      | .compact => f.extra }

/-- Fast fields with a class decided: PENDING at its level (R171). -/
def Fast.resume (f : Fast) (c : ResumeClass) (level : Nat) : Fast :=
  { f with status := .pending, cls := some c, level := some level }

/-- Auto-retire (item 2). -/
def PlanInputs.autoRetire (i : PlanInputs) : Bool := i.settings.item 2 == 1

/-- The commit fields every outcome gets: the outage count raised and the load temperature at T_res (R171). -/
def PlanInputs.committed (i : PlanInputs) (f : Fast) : PlanOutcome :=
  .commit { f with outage := min 255 (f.outage + 1), temp := i.res } i.plan.interval i.plan.length

/-- The door input judged for a record in CREASE or DONE (R168, R169, R170): retired with auto-retire on, else held
DOOR with no class; `none` when the door input is clear. -/
def PlanInputs.doorJudged (i : PlanInputs) (f : Fast) : Option PlanOutcome :=
  if !i.door then none
  else if i.autoRetire then some .retire
  else some (i.committed { f.endResume with hold := .door })

/-- The fast fields of a DAMAGED record that do not follow from the plan's arithmetic (R165). -/
def PlanInputs.damagedFast (i : PlanInputs) (f : Fast) : Fast :=
  let interrupted : Interrupted := if !i.image.has 1 || f.phase == .heat then .heat else .cool
  let g : Fast :=
    { f with
        phase := .cool, hold := .none, cool := i.settings.item 22, interrupted := some interrupted
        heat := if i.image.has 2 then f.heat else 0, progress := none }
  g.resume .coolFirst 15

/-- The outcome of a DAMAGED record (R165). -/
def PlanInputs.planDamaged (i : PlanInputs) (f : Fast) : PlanOutcome := i.committed (i.damagedFast f)

/-- The fast fields with which the context of a DAMAGED record is created when the planner takes the record up (R56, R165):
those of its outcome, but for the load temperature, which is still T_s, and the outage count, which the commit raises.
DEDUCED: log entry 61. -/
def PlanInputs.takenUp (i : PlanInputs) : Fast := { i.damagedFast i.fast with temp := i.savedTemp }

/-- The hazard threshold (R166). -/
def PlanInputs.threshold (i : PlanInputs) (f : Fast) : Nat :=
  if f.interrupted.isSome then i.settings.item 20 - i.settings.item 21 else i.settings.item 20

/-- The level of a COOL_FIRST resumption (R166). -/
def PlanInputs.hazardLevel (i : PlanInputs) : Nat := 12 + min 2 ((i.res - i.settings.item 20) / 8)

/-- The outcome of the hazard rule (R166). -/
def PlanInputs.planHazard (i : PlanInputs) (f : Fast) : PlanOutcome :=
  let interrupted : Interrupted := f.interrupted.getD (if f.phase = .heat then .heat else .cool)
  let f := if interrupted = .heat then i.withAllowance f else f
  let g : Fast :=
    { f with phase := .cool, hold := .none, interrupted := some interrupted, cool := max f.cool (i.settings.item 22) }
  i.committed (g.resume .coolFirst i.hazardLevel)

/-- The outcome of HEAT below hazard (R167). -/
def PlanInputs.planHeat (i : PlanInputs) (f : Fast) : PlanOutcome :=
  let g := i.withAllowance { f with phase := .heat, cool := 0, interrupted := none }
  if f.interrupted.isSome then i.committed { g with hold := if i.door then .door else .resumeAsk }
  else if i.door then i.committed { g with hold := if HoldCause.rank .door < g.hold.rank then g.hold else .door }
  else if g.hold ≠ .none then i.committed g
  else if i.statics.options.ask then i.committed { g with hold := .resumeAsk }
  else i.committed (g.resume .reheat 9)

/-- The outcome of COOL below hazard (R168). -/
def PlanInputs.planCool (i : PlanInputs) (f : Fast) : PlanOutcome :=
  let f := { f with cool := 0, interrupted := none }
  let g : Fast :=
    if creaseOn i.statics.options i.plan then { f with phase := .crease, progress := some (freshProgress i.plan) }
    else { f with phase := .done, progress := none }
  match i.doorJudged g with
  | some o => o
  | none => i.committed (if g.phase = .crease then g.resume .creaseOn 5 else g)

/-- The outcome of a record in DONE (R170). -/
def PlanInputs.planDone (i : PlanInputs) (f : Fast) : PlanOutcome :=
  match i.doorJudged f with
  | some o => o
  | none => i.committed f

/-- A crease record to DONE, its progress removed. -/
def Fast.toDone (f : Fast) : Fast := { f with phase := .done, progress := none }

/-- The outage charged against crease progress whose window outlasts it (R169, step 4). -/
def chargeCrease (cp : CreaseProgress) (t interval : Nat) : CreaseProgress :=
  if cp.nextDue ≤ t then
    { cp with window := cp.window - t, nextDue := 0,
              remaining := max 1 (cp.remaining - (t - cp.nextDue) / interval) }
  else { cp with window := cp.window - t, nextDue := cp.nextDue - t }

/-- The outcome of a record in CREASE (R169); without progress it is judged as a DONE record (R158, log entry 32). -/
def PlanInputs.planCrease (i : PlanInputs) (f : Fast) : PlanOutcome :=
  match f.progress with
  | none => i.planDone f.toDone
  | some cp =>
    let cp' := cutTumble i.plan.interval cp
    let f := { f with progress := some cp' }
    if cp.tumbling && cp'.remaining == 0 then i.planDone f.toDone
    else
      match i.doorJudged f with
      | some o => o
      | none =>
        match i.timeEff with
        | none => i.committed f.toDone
        | some t =>
          if cp'.window ≤ t then i.committed f.toDone
          else if cp'.nextDue ≤ t then
            i.committed (Fast.resume { f with progress := some (chargeCrease cp' t i.plan.interval) } .creaseOn 5)
          else i.committed { f with progress := some (chargeCrease cp' t i.plan.interval) }

/-- The hold of an image before the decision: DOOR and LINK are kept in HEAT alone (R164). -/
def heldBefore (f : Fast) : HoldCause :=
  match f.hold, f.phase with
  | .door, .heat => .door
  | .link, .heat => .link
  | .door, _ => .none
  | .link, _ => .none
  | h, _ => h

/-- The outcome of one record, by the first rule that applies (R164). DEDUCED: log entry 48. -/
def PlanInputs.outcome (i : PlanInputs) : PlanOutcome :=
  let f := { i.fast with status := .none, cls := none, level := none }
  if i.image.damaged then i.planDamaged f
  else if f.hold = .damaged then i.committed { f with interrupted := none }
  else if i.damagedRecord then i.planDamaged f
  else
    let f := { f with hold := heldBefore f }
    if (f.phase = .heat ∨ f.phase = .cool) ∧ i.threshold f ≤ i.res then i.planHazard f
    else
      match f.phase, f.interrupted with
      | .heat, _ => i.planHeat f
      | .cool, some .heat => i.planHeat f
      | .cool, _ => i.planCool f
      | .crease, _ => i.planCrease { f with interrupted := none }
      | .done, _ => i.planDone { f with interrupted := none }
      | .staged, _ => i.committed { f with interrupted := none }

end Sys2Proof.Machine
end

