-- ==== Sys2Proof/Machine/PlanOps.lean ====
section
/-! DEFINITION. Shared operations of PLAN (sections 8.1 and 8.5), of the save (sections 7.3 and 7.4), and what follows
the end of a store operation in either. -/

namespace Sys2Proof.Machine

/-! ### Operations in progress -/

/-- An operation as it begins service with its accesses to make. -/
def Running.of (op : StoreOp) (todo : List Access) : Running :=
  { op := op, todo := todo, taken := 0, statics := ⟨1, Options.none, 0, none⟩, target := 0, good := true,
    entry := MapEntry.none, move := none, stash := none }

/-- An operation begins service (R40). -/
def Work.serveOp (w : Work) (r : Running) : Work := { w with ctl := { w.ctl with current := some r } }

/-- The accesses of a checkpoint of a context: header, each word that holds a dirty field in ascending order, the
plan-stamp word of a commit, header (R62). -/
def checkpointTodo (g : Geometry) (c : Context) : List Access :=
  .headerOpen :: ((wordsOf g c.dirty ++ (if c.stampPending then [stampWord g] else [])).map Access.merge ++ [.headerClose])

/-- The accesses of a move after its frame has been taken, less the static words that the operation which became the move
has found uncorrectable (R42). DESIGN CHOICE: log entry 63. -/
def moveTodo (g : Geometry) (known : List Nat) : List Access :=
  ((staticWords g).filter fun k => !known.contains k).map Access.moveRead
    ++ [.moveReadRest] ++ ((List.range (frameSize g)).drop 1).map Access.moveWrite
    ++ [.moveHeader, .moveMap, .moveOldHeader]

/-- An operation becomes, or is, a move out of frame `old`: it takes the frame at the head of the free list (R41, R42);
`none` when no frame is free. -/
def Work.beginMove (w : Work) (r : Running) (old : Nat) (known : List Nat) : Option Work :=
  match w.ctl.free with
  | [] => none
  | f :: rest =>
    some { w with ctl := { w.ctl with
      free := rest
      current := some { r with
        todo := moveTodo w.geometry known
        move := some { old := old, new := f, statics := w.safeStatics, stamp := none, saved := false } } } }

/-! ### Bring-up and first polls -/

/-- The first-poll window of `p` opens and a POLL is posted (R156). -/
def Work.openWindow (w : Work) (p : Pocket) : Work :=
  Work.postPoll { w with plan := { w.plan with step := .firstPolls, window := some ⟨p, Config.firstPollMs, none⟩ } } p

/-- The link is brought up (R110): the queue is emptied of what is not on the wire, attempts and marks are cleared,
every pocket below P that is not in FAULT becomes UNKNOWN, and SAFE is broadcast. DEDUCED: log entry 37. The offline poll
timers stop, and no probe is owed any more. DESIGN CHOICE: log entry 65. -/
def Work.bringUp (w : Work) : Work :=
  let w := w.setQueue (w.link.queue.filter fun e => e.state == .inFlight)
  let w := allPockets.foldl (fun w p =>
    (if p.val < w.count ∧ (w.pocketLink p).state ≠ .fault then w.setLinkState p .unknown none else w).onLink p fun l =>
      { l with startAttempts := 0, latchSeen := false, safeOwed := false, probeOwed := false, heatLost := false, offlineMs := none }) w
  w.broadcastSafe

/-- The part enters PLAN (R110, R135, R155): bring-up, the sag window timer from its full setting after a reset, the
planner's frame reads at a short dip (R157), and the first pocket's window. DEDUCED: log entry 40. -/
def Work.enterPlan (w : Work) (shortDip : Bool) : Work :=
  let w := (w.enter .plan).bringUp
  let w : Work := { w with
    plan := { w.plan with first := Vector.replicate 32 none
                          images := if shortDip then Vector.replicate 32 none else w.plan.images }
    sag := if shortDip then w.sag else { w.sag with windowMs := w.setting 11 * 1000, windowRuns := true } }
  let w := if shortDip then
      w.pockets.foldl (fun w p =>
        if (w.ctl.mirror[p]).valid then w.enqueue (.plannerRead p (w.ctl.mirror[p]).frame) else w) w
    else w
  w.openWindow 0

/-! ### Planning and commit -/

/-- The outage time t_out (R153). -/
def State.outageTime (s : State) : Option Nat := if s.sup.mark.valid && s.backup.valid then some s.backup.timer else none

/-- The inputs with which the record of `p` is planned. -/
def State.planInputs (s : State) (p : Pocket) (x : Image) : PlanInputs :=
  { settings := s.ctl.loaded, geometry := s.geometry, mark := s.sup.mark, tOut := s.plan.tOut, image := x,
    first := s.plan.first[p] }

/-- The LINK hold of a committed record whose pocket is not ONLINE, and its last fault (R171). -/
def State.linkAtCommit (s : State) (p : Pocket) (interval : Nat) (f : Fast) : Fast :=
  if (s.pocketLink p).state = .online ∨ !HoldCause.link.appliesIn f.phase ∨ HoldCause.rank .link < f.hold.rank then f
  else
    let f := f.takeHold .link interval
    match s.geometry, (s.pocketLink p).state, (s.pocketLink p).cause with
    | .standard, .offline, _ => { f with lastFault := some .silent }
    | .standard, .fault, some c => { f with lastFault := some c }
    | _, _, _ => f

/-- Whether the context of `p` is that of a pinned record. -/
def State.isPinned (s : State) (p : Pocket) : Bool := ((s.ctx p).map (·.pinned)).getD false

/-- A context the planner creates for the record of `p` from its image (R56): the generation and the frame, the fast fields,
all of them dirty, and the values last written into the header; those of a header that cannot be read are 0 and clear.
DESIGN CHOICE: log entry 75. -/
def State.plannedContext (s : State) (p : Pocket) (x : Image) (f : Fast) (interval length : Nat) : Context :=
  { gen := if x.has 0 then x.gen else (s.ctl.mirror[p]).gen
    frame := x.frame
    fast := f
    dirty := allFields s.geometry, since := allFields s.geometry
    shadow := { stamp := if x.has 0 then x.data.header.stamp else 0, plan := x.stamp s.geometry
                saved := x.has 0 && x.data.header.saved }
    timer := s.setting 1
    checkpoint := .idle
    pinned := s.isPinned p
    tumbleLeft := none, awaitCool := false, tumbleGranted := false
    interval := interval, length := length, heatLevel := none
    stampPending := false, commitMove := false }

/-- The frame in which a record is committed: that of its image, or the one to which a move has brought the record since
(R43). -/
def State.commitFrame (s : State) (p : Pocket) (x : Image) : Nat :=
  match s.ctx p with
  | some c => c.frame
  | none => x.frame

/-- The context the planner commits (R56, R171), with the plan stamp and a clear saved-at-outage waiting in its shadow, of a
record that is pinned then as well. DEDUCED: log entry 42. DESIGN CHOICE: log entry 53. -/
def State.committedContext (s : State) (p : Pocket) (x : Image) (f : Fast) (interval length : Nat) : Context :=
  let c := s.plannedContext p x f interval length
  let moved := s.commitFrame p x != x.frame
  { c with
    frame := s.commitFrame p x
    shadow := { stamp := if moved then ((s.ctx p).map (·.shadow.stamp)).getD 0 else c.shadow.stamp
                plan := some ⟨s.sup.mark.seq, s.plan.tOut.getD 0⟩, saved := false }
    stampPending := true, commitMove := x.commitMove && !moved }

/-- The move that writes a commit is enqueued; one of the record that waits already, for a frame that became free (R43), is
made that move and keeps its turn, as a record has at most one queued (R40). -/
def Work.enqueueCommitMove (w : Work) (p : Pocket) (frame : Nat) : Work :=
  if w.ctl.queue.any (·.isMoveOf p) then
    { w with ctl := { w.ctl with queue := w.ctl.queue.map fun op => if op.isMoveOf p then .move p frame true else op } }
  else w.enqueue (.move p frame true)

/-- One record's outcome is committed (R171): retired, or a context with its write enqueued. DEDUCED: log entry 33. -/
def Work.commitRecord (w : Work) (p : Pocket) (x : Image) : Work :=
  match (w.planInputs p x).outcome with
  | .retire =>
    ((w.dropContext p).mark .retired p).enqueue (.retire p (w.commitFrame p x) (w.isPinned p) false)
  | .commit f interval length =>
    let f := w.linkAtCommit p interval f
    let d := w.committedContext p x f interval length
    let w := w.setCtx p (some d)
    let old := x.data.fast
    let known := x.has 1
    let w := if known && f.phase == old.phase then w else w.mark .phase p
    let w := if known && f.hold == old.hold then w else w.mark .hold p
    let w := if f.status = .pending then w.mark .resume p else w
    if d.commitMove then w.enqueueCommitMove p d.frame else w.demandCheckpoint p

/-- Whether an operation is one that a commit enqueued (R171). -/
def StoreOp.isCommit (op : StoreOp) : Bool :=
  match op with
  | .checkpoint _ => true
  | .retire _ _ _ _ => true
  | .move _ _ commit => commit
  | _ => false

/-- Whether an operation is the planner's read of the frame of `p`. -/
def StoreOp.isPlannerReadOf (op : StoreOp) (p : Pocket) : Bool :=
  match op with
  | .plannerRead q _ => q == p
  | _ => false

/-- Whether an operation of a kind waits or is in progress. -/
def State.opStands (s : State) (f : StoreOp → Bool) : Bool :=
  s.ctl.queue.any f || (s.ctl.current.map fun r => f r.op).getD false

/-- A record is taken up for planning: that of a DAMAGED image gets its context, in place of one held through the outage
(R56, R155). -/
def Work.takeUp (w : Work) (p : Pocket) : Work :=
  match w.plan.images[p] with
  | none => w
  | some x =>
    let i := w.planInputs p x
    if x.damaged then w.setCtx p (some (w.plannedContext p x i.takenUp i.plan.interval i.plan.length)) else w

/-- Step 2 of PLAN (R155): the records are taken up in ascending pocket order, as far as their frames have been read (R157).
When all have been, step 3 begins. DESIGN CHOICE: log entry 59. -/
def Work.planRecords (w : Work) : Work :=
  if w.plan.step = .planning then
    let ready := (w.pockets.drop w.plan.next).takeWhile fun p => !w.opStands (·.isPlannerReadOf p)
    let w := ready.foldl (fun w p => w.takeUp p) w
    let next := w.plan.next + ready.length
    { w with plan := if next < w.pockets.length then { w.plan with next := next } else { w.plan with step := .commits, next := 0 } }
  else w

/-- The record that is committed next, with its image. -/
def State.nextCommit (s : State) : Option (Pocket × Image) :=
  s.pockets.findSome? fun p => if s.plan.next ≤ p.val then (s.plan.images[p]).map fun x => (p, x) else none

/-- Step 3 of PLAN (R155, R171): one record is committed, and the next when the operation that the commit enqueued has ended.
After the last of them the closing mark write is enqueued (R172). DESIGN CHOICE: log entry 60. -/
def Work.commitNext (w : Work) : Work :=
  if w.plan.step = .commits ∧ !w.opStands StoreOp.isCommit then
    match w.nextCommit with
    | some (p, x) => Work.commitRecord { w with plan := { w.plan with next := p.val + 1 } } p x
    | none => Work.enqueue { w with plan := { w.plan with step := .close } } (.markWrite true)
  else w

/-- PLAN goes on from where it stands (R155). -/
def Work.planOn (w : Work) : Work := w.planRecords.commitNext

/-- Step 2 of PLAN begins, and the planner takes the outage time (R159). -/
def Work.beginPlanning (w : Work) : Work :=
  Work.planOn { w with plan := { w.plan with window := none, step := .planning, next := 0, tOut := w.outageTime } }

/-- The open first-poll window ends: the next pocket's opens, or planning begins (R156). -/
def Work.endWindow (w : Work) : Work :=
  match w.plan.window with
  | none => w
  | some x =>
    if h : x.pocket.val + 1 < 32 ∧ x.pocket.val + 1 < w.count then w.openWindow ⟨x.pocket.val + 1, h.1⟩ else w.beginPlanning

/-- Steps 5 and 6 of PLAN (R172): CLEAR_DOOR to every ONLINE pocket, ACTIVE, the start requests of PENDING records,
convergence and the first evaluation. -/
def Work.enterActive (w : Work) : Work :=
  let w := allPockets.foldl (fun w p => if (w.pocketLink p).state = .online then w.postClearDoor p else w) w
  let w := w.enter .active
  let w : Work := { w with plan := Planner.reset, link := { w.link with roundMs := 0 }, grant := true }
  let w := allPockets.foldl (fun w p =>
    match w.ctx p with
    | some c =>
      if c.fast.status = .pending ∧ c.fast.hold = .none then w.makeRequest p (c.fast.level.getD 0) else w
    | none => w) w
  allPockets.foldl (fun w p => w.rederive p) w

/-- Plan completion (R153): the outage timer and its running flag are cleared, and backup-valid is set if VBK holds. -/
def Work.completePlan (w : Work) : Work :=
  { w with backup := { w.backup with timer := 0, running := false, secondMs := 0, valid := w.backup.valid || w.sup.vbkGood } }

/-! ### The save -/

/-- The rank of a context in the save (R145). -/
def saveRank (f : Fast) : Nat :=
  if f.phase = .heat ∧ f.hold = .none then 4
  else if (f.phase = .cool ∧ f.hold = .none) ∨ f.status = .running then 3
  else if f.phase = .crease then 2
  else if f.phase = .staged ∨ f.hold ≠ .none then 1
  else 0

/-- A context eligible for a save write (R145). -/
def Context.eligible (c : Context) : Bool := c.dirty != 0 && !c.pinned

/-- Whether the first context is written before the second (R145): rank, then load temperature; of equals the lower
pocket, which comes first in `allPockets`, stays. -/
def savedBefore (a b : Fast) : Bool := saveRank b < saveRank a || (saveRank a == saveRank b && b.temp < a.temp)

/-- The context whose save write comes next (R145). -/
def State.nextSaved (s : State) : Option (Pocket × Context) :=
  allPockets.foldl (fun best p =>
    match s.ctx p, best with
    | some c, some (_, b) => if c.eligible && savedBefore c.fast b.fast then some (p, c) else best
    | some c, none => if c.eligible then some (p, c) else none
    | none, _ => best) none

/-- The save ends (R147): the report is set, and the part goes to PLAN when mains is settled, otherwise to DARK. -/
def Work.endSave (w : Work) : Work :=
  let ctxs := allPockets.filterMap w.ctx
  let report : SaveReport :=
    { charged := w.sup.save.charged, written := w.sup.save.written, unsaved := (ctxs.filter (·.eligible)).length
      pinned := (ctxs.filter (·.pinned)).length }
  let w : Work := { w with sup := { w.sup with report := some report, save := SaveRun.none } }
  if w.sup.settled then w.enterPlan true else w.enter .dark

/-- A frame is charged to the save (R144). -/
def Work.charge (w : Work) : Work :=
  { w with sup := { w.sup with save := { w.sup.save with charged := w.sup.save.charged + 1 } } }

/-- The next save write begins while the budget allows, or the save ends (R144, R146, R147). A commit that was to be made
as a move is made as that move, which reads every static word (log entry 63); without a free frame its record becomes
pinned. -/
def Work.saveNext : Nat → Work → Work
  | 0, w => w
  | n + 1, w =>
    match (if w.sup.save.charged < w.setting 6 then w.nextSaved else none) with
    | none => w.endSave
    | some (p, c) =>
      let w := w.charge.onCtx p fun c => { c with checkpoint := .writing }
      let r := Running.of (.saveWrite p) (checkpointTodo w.geometry c)
      if c.commitMove then
        match w.beginMove r c.frame [] with
        | some w => w
        | none => Work.saveNext n ((w.onCtx p fun c => { c with checkpoint := .idle }).pin p)
      else w.serveOp r

/-- The outage mark is decided (R143): a copy that is not valid takes a new mark, whose write is the first operation of
the save, and the outage timer starts. -/
def Work.decideMark (w : Work) : Work :=
  if w.sup.mark.valid then w
  else
    { w with
      sup := { w.sup with mark := ⟨true, (w.sup.mark.seq + 1) % 256, w.sup.save.uptime⟩ }
      backup := { w.backup with timer := 0, running := true, secondMs := 0, valid := w.backup.valid || w.sup.vbkGood }
      ctl := { w.ctl with queue := .markWrite false :: w.ctl.queue } }

/-- What the end of an operation in SAVE leads to (R142 to R147). DEDUCED: log entry 34. -/
def Work.saveAdvance (w : Work) (r : Running) : Work :=
  let w :=
    if w.sup.save.opAtWarning then
      Work.decideMark { w.charge with sup := { w.charge.sup with save := { w.charge.sup.save with opAtWarning := false } } }
    else
      match r.op with
      | .retire _ _ _ _ => w.charge
      | .staticRead _ _ => if r.move.isSome then w.charge else w
      | .saveWrite p =>
        if ((w.ctx p).map (·.pinned)).getD false then w
        else { w with sup := { w.sup with save := { w.sup.save with written := w.sup.save.written + 1 } } }
      | _ => w
  if w.ctl.queue.isEmpty then Work.saveNext 40 w else w

/-- An operation has ended: the store is free, and the save or PLAN goes on. -/
def Work.endOp (w : Work) (r : Running) : Work :=
  let w : Work := { w with ctl := { w.ctl with current := none } }
  match w.part with
  | .save => w.saveAdvance r
  | .plan => w.planOn
  | _ => w

/-- A checkpoint has ended (R60, R62): its state becomes IDLE, or QUEUED when another waits, and the timer is loaded. -/
def Work.checkpointEnded (w : Work) (p : Pocket) : Work :=
  w.onCtx p fun c =>
    { c with timer := w.setting 1, checkpoint := if w.checkpointQueued p then .queued else .idle }

end Sys2Proof.Machine
end

