-- ==== Sys2Proof/Machine/StoreRun.lean ====
section
/-! DEFINITION. Store operations at work (section 2.4): each access to the array, what happens when a word that is needed
cannot be read, how an operation begins service, and what its end brings about. -/

namespace Sys2Proof.Machine

/-! ### The record an operation serves -/

/-- The pocket whose record an operation serves. -/
def StoreOp.recordPocket (op : StoreOp) : Option Pocket :=
  match op with
  | .staticRead p _ | .lookupRead p _ | .staticWrite p _ _ | .checkpoint p | .saveWrite p | .move p _ _ => some p
  | _ => none

/-- The context an operation in progress works from: that of its pocket, or the one dropped while it was served
(R57). DEDUCED: log entry 20. -/
def State.opContext (s : State) (r : Running) : Option Context :=
  match r.stash with
  | some c => some c
  | none => r.op.recordPocket.bind s.ctx

/-- The operation in progress changed. -/
def Work.onRun (w : Work) (f : Running → Running) : Work := { w with ctl := { w.ctl with current := w.ctl.current.map f } }

/-- The context an operation works from changed. -/
def Work.onOpContext (w : Work) (r : Running) (f : Context → Context) : Work :=
  match r.stash, r.op.recordPocket with
  | some _, _ => w.onRun fun r => { r with stash := r.stash.map f }
  | none, some p => w.onCtx p f
  | none, none => w

/-- The retire operation that waits for `p` finds the frame and the pinned mark that an operation left (R57). -/
def Work.onRetire (w : Work) (p : Pocket) (f : Nat → Nat) (pinned : Bool) : Work :=
  { w with ctl := { w.ctl with queue := w.ctl.queue.map fun op =>
      match op with
      | .retire q fr pin host => if q = p then .retire q (f fr) pinned host else .retire q fr pin host
      | _ => op } }

/-! ### When a word that is needed cannot be read -/

/-- An operation whose move finds no free frame: its record is pinned (R43). -/
def Work.pinForOp (w : Work) (r : Running) : Work :=
  match r.op.recordPocket, r.stash with
  | some p, none => w.pin p
  | some p, some _ => ((w.onRun fun r => { r with stash := r.stash.map fun c => { c with pinned := true } }).onRetire p id true).markPart .store
  | none, _ => w

/-- A word that an operation must read-merge-write cannot be read: the operation becomes a move, or without a free frame
its record is pinned and it ends (R41, R43, R63). -/
def Work.mergeFails (w : Work) (r : Running) (frame k : Nat) : Work :=
  match w.beginMove r frame [k] with
  | some w => w
  | none => (w.pinForOp r).onRun fun r => { r with todo := [], good := false }

/-- The static fields that a word of role `x` gives, over those read so far. -/
def Statics.take (st : Statics) (x : Role) (src : Statics) : Statics :=
  match x with
  | .first => { st with level := src.level, options := src.options, coolLength := src.coolLength }
  | .plan => { st with plan := src.plan }
  | _ => st

/-- A static field changed by SET_HEAT or SET_OPTIONS (R28, R29). -/
def StaticChange.apply (c : StaticChange) (st : Statics) : Statics :=
  match c with
  | .level v => { st with level := v }
  | .options set clear => { st with options := st.options.change set clear }

/-- The operation in progress takes the values of the fields `m` from its context, which have not changed since (R59). -/
def Work.carry (w : Work) (r : Running) (m : FieldSet) : Work :=
  (w.onRun fun r => { r with taken := r.taken ||| m }).onOpContext r fun c => { c with since := c.since &&& ~~~ m }

/-- A context whose values an operation took and has written: a field that has changed since it was taken stays dirty
(R59). -/
def Context.carried (c : Context) (r : Running) : Context :=
  { c with dirty := c.dirty &&& ~~~ (r.taken &&& ~~~ c.since), since := 0, stampPending := false }

/-! ### Accesses of the three-step form (R62, R146) -/

/-- The header of a checkpoint in progress, or of its last write. -/
def Context.header (c : Context) (p : Pocket) (isOpen saved : Bool) (stamp : Nat) : Header :=
  { state := .live, writeOpen := isOpen, saved := saved, pocket := p.val, gen := c.gen, stamp := stamp }

/-- The first header write (R62, step 1), with the flag as the shadow holds it: that of a commit is clear already here.
DESIGN CHOICE: log entry 71. -/
def Work.headerOpen (w : Work) (p : Pocket) (c : Context) : Work :=
  w.writeHeader c.frame (c.header p true c.shadow.saved c.shadow.stamp)

/-- Read-merge-write of word `k` with the dirty fields it holds, and the plan stamp of a commit (R41, R62). -/
def Work.mergeWord (w : Work) (r : Running) (c : Context) (k : Nat) : Work :=
  let n := frameWord w.geometry c.frame k
  let ok := w.readable n
  let w := w.readWord n .checkpoint false
  if ok then
    let m := (roleOf w.geometry k).fields &&& c.dirty
    let old := w.store.frame c.frame
    let src := { old with fast := Fast.blend m c.fast old.fast, stamp := if c.stampPending then c.shadow.plan else old.stamp }
    (w.writeFrameWord c.frame k src).carry r m
  else w.mergeFails r c.frame k

/-- The last header write, with which the checkpoint ends (R62, step 3; R146 for a save write). -/
def Work.headerClose (w : Work) (r : Running) (p : Pocket) (c : Context) (save : Bool) : Work :=
  let saved := save || c.shadow.saved
  (w.writeHeader c.frame (c.header p false saved w.sup.uptime)).onOpContext r fun c =>
    { c.carried r with shadow := { c.shadow with stamp := w.sup.uptime, saved := saved } }

/-! ### Accesses of static reads and writes (R45, R65) -/

/-- A static word of a pinned record cannot be read: with word 1 the heat level of the record is lost (R22). -/
def Work.firstWordLost (w : Work) (r : Running) (k : Nat) : Work :=
  match r.stash, r.op.recordPocket with
  | none, some p => if k = 1 then w.levelLost p else w
  | _, _ => w

/-- The static write of word 1 (R65). -/
def Work.staticMerge (w : Work) (r : Running) (c : Context) (change : StaticChange) : Work :=
  let n := frameWord w.geometry c.frame 1
  let ok := w.readable n
  let w := w.readWord n .checkpoint false
  if ok then
    let old := w.store.frame c.frame
    w.writeFrameWord c.frame 1 (old.withStatics (change.apply old.statics))
  else w.mergeFails r c.frame 1

/-- A static word is read (R45): a word that cannot be read turns the read into a move; the record is pinned when that
cannot be made, and a pinned record uses safe values. -/
def Work.readStatic (w : Work) (r : Running) (c : Context) (k : Nat) : Work :=
  let n := frameWord w.geometry c.frame k
  let role := roleOf w.geometry k
  let ok := w.readable n
  let w := w.readWord n .read (!c.pinned)
  let takes (w : Work) (src : Statics) : Work := w.onRun fun r => { r with statics := r.statics.take role src }
  if ok then takes w (w.store.frame c.frame).statics
  else if c.pinned then takes (w.firstWordLost r k) w.safeStatics
  else
    match w.beginMove r c.frame [k] with
    | some w => w
    | none => takes (w.pinForOp r) w.safeStatics

/-! ### Accesses of a move (R42) -/

/-- The move in flight changed. -/
def Work.onMove (w : Work) (f : MoveData → MoveData) : Work := w.onRun fun r => { r with move := r.move.map f }

/-- A static word of the old frame is read (step 2); one that is correctable is written back there (R33), also when the move
was a checkpoint or a static write. DESIGN CHOICE: log entry 74. -/
def Work.moveRead (w : Work) (m : MoveData) (c : Context) (k : Nat) : Work :=
  let n := frameWord w.geometry m.old k
  let ok := w.readable n
  let w := w.readWord n .read (!c.pinned)
  if ok then w.onMove fun m => { m with statics := m.statics.take (roleOf w.geometry k) (w.store.frame m.old).statics } else w

/-- The plan stamp and saved-at-outage of the old frame are read, or those of a commit are taken from the shadow (log
entry 30); a static write's new value joins the static fields (R41). DEDUCED: log entry 31. A correctable word is written
back (log entry 74). -/
def Work.moveReadRest (w : Work) (r : Running) (m : MoveData) (c : Context) : Work :=
  let stampAt := frameWord w.geometry m.old (stampWord w.geometry)
  let headAt := frameWord w.geometry m.old 0
  let w :=
    if c.stampPending then w.onMove fun m => { m with stamp := c.shadow.plan, saved := false }
    else
      let stamp := if w.readable stampAt then (w.store.frame m.old).stamp else none
      let saved := w.readable headAt && (w.store.frame m.old).header.saved
      ((w.readWord stampAt .read (!c.pinned)).readWord headAt .read (!c.pinned)).onMove fun m => { m with stamp := stamp, saved := saved }
  match r.op with
  | .staticWrite _ change _ => w.onMove fun m => { m with statics := change.apply m.statics }
  | _ => w

/-- A body word of the new frame is written whole (step 3). -/
def Work.moveWrite (w : Work) (r : Running) (m : MoveData) (c : Context) (k : Nat) : Work :=
  let src := { Frame.blank with fast := c.fast, stamp := m.stamp }
  (w.writeFrameWord m.new k (src.withStatics m.statics)).carry r (roleOf w.geometry k).fields

/-- The header of the new frame is written LIVE (step 3, R35). -/
def Work.moveHeader (w : Work) (m : MoveData) (p : Pocket) : Work :=
  w.writeHeader m.new { state := .live, writeOpen := false, saved := m.saved, pocket := p.val,
                        gen := (w.ctl.mirror[p]).gen, stamp := w.sup.uptime }

/-- The map entry is written naming the new frame; the context names it from then on, the dirty set is emptied of what
the move took, and the old frame is quarantined (step 4, R43). -/
def Work.moveMap (w : Work) (r : Running) (m : MoveData) (p : Pocket) (c : Context) : Work :=
  let w := w.writeMap p ⟨true, m.new, (w.ctl.mirror[p]).gen⟩
  let stamp := (w.store.frame m.new).header.stamp
  let w := w.onOpContext r fun c =>
    { c.carried r with frame := m.new, pinned := false, commitMove := false
                       shadow := { stamp := stamp, plan := m.stamp, saved := m.saved } }
  let w := if c.pinned then w.markPart .store else w
  (w.onRetire p (fun f => if f = m.old then m.new else f) false).quarantineFrame m.old

/-! ### Accesses of OPEN, retirement, the map, the header area and the planner -/

/-- The fast fields of a new record (R3). -/
def openFast (heat ambient : Nat) : Fast := { Fast.zero with heat := heat, temp := ambient }

/-- The contents OPEN writes into its frame (R44). -/
def State.openFrame (s : State) (args : Statics) (heat : Nat) : Frame :=
  ({ Frame.blank with fast := openFast heat (s.setting 18) } : Frame).withStatics args

/-- The map write of a retirement: a good read-back ends a map fault, and the frame joins its pool (R39, R44). -/
def Work.retireMap (w : Work) (p : Pocket) (frame : Nat) (pinned : Bool) : Work :=
  let w := w.writeMap p ⟨false, 0, (w.ctl.mirror[p]).gen⟩
  let w := if w.mapGood p then w.endMapFault p else w
  if pinned then w.quarantineFrame frame else w.freeFrame frame

/-- A settings word is written whole (R194). -/
def Work.writeSettingsWord (w : Work) (src : Settings) (k : Nat) : Work :=
  Work.wrote { w with store := { w.store with settings := w.store.settings.withWord src k } } k

/-- The outage mark is written whole (R143, R153). -/
def Work.writeMark (w : Work) (m : OutageMark) : Work := Work.wrote { w with store := { w.store with mark := m } } markWord

/-- The format word is written whole. -/
def Work.writeFormat (w : Work) (f : FormatWord) : Work := Work.wrote { w with store := { w.store with format := f } } 0

/-- The words of a frame that cannot be read. -/
def State.badWords (s : State) (f : Nat) : List Nat :=
  (List.range (frameSize s.geometry)).filter fun k => !s.readable (frameWord s.geometry f k)

/-- Every word of a frame is read. -/
def Work.readWholeFrame (w : Work) (f : Nat) (src : LatchSource) (writeBack : Bool) : Work :=
  (List.range (frameSize w.geometry)).foldl (fun w k => w.readWord (frameWord w.geometry f k) src writeBack) w

/-- FORMAT writes a map entry invalid, with a STORE event at each read-back that cannot be read (R193). -/
def Work.formatMapWord (w : Work) (p : Pocket) : Work :=
  let w := w.writeMap p MapEntry.none
  if w.mapGood p then w else w.markPart .store

/-- The pocket a request names. -/
def reqPocket (r : HostReq) : Option Pocket := if h : reqPocketField r < 32 then some ⟨reqPocketField r, h⟩ else none

/-- One access of the operation in progress, made with its context. -/
def Work.recordAccess (w : Work) (r : Running) (p : Pocket) (c : Context) (a : Access) : Work :=
  match a, r.op, r.move with
  | .headerOpen, _, _ => w.headerOpen p c
  | .merge k, _, _ => w.mergeWord r c k
  | .headerClose, .saveWrite _, _ => w.headerClose r p c true
  | .headerClose, _, _ => w.headerClose r p c false
  | .staticMerge, .staticWrite _ change _, _ => w.staticMerge r c change
  | .readStatic k, _, _ => w.readStatic r c k
  | .moveRead k, _, some m => w.moveRead m c k
  | .moveReadRest, _, some m => w.moveReadRest r m c
  | .moveWrite k, _, some m => w.moveWrite r m c k
  | .moveHeader, _, some m => w.moveHeader m p
  | .moveMap, _, some m => w.moveMap r m p c
  | .moveOldHeader, _, some m => w.writeHeader m.old (w.withdrawnHeader m.old .quarantined)
  | _, _, _ => w

/-- One access of the operation in progress that no context takes part in. The copy of the format word takes the new geometry
and P with the last write of FORMAT (R193). DESIGN CHOICE: log entry 77. -/
def Work.plainAccess (w : Work) (r : Running) (a : Access) : Work :=
  match a, r.op with
  | .openWrite k, .openRecord _ _ args heat _ => w.writeFrameWord r.target k (w.openFrame args heat)
  | .openHeader, .openRecord p gen _ _ _ =>
    w.writeHeader r.target { state := .live, writeOpen := false, saved := false, pocket := p.val, gen := gen, stamp := w.sup.uptime }
  | .openMap, .openRecord p gen _ _ _ =>
    let w := w.writeMap p ⟨true, r.target, gen⟩
    w.onRun fun r => { r with good := w.mapGood p }
  | .retireMap, .retire p frame pinned _ => w.retireMap p frame pinned
  | .retireHeader, .retire _ frame pinned _ =>
    w.writeHeader frame (w.withdrawnHeader frame (if pinned then .quarantined else .free))
  | .readMap, .translation req =>
    match reqPocket req with
    | some p =>
      let good := w.readable (mapWord p)
      (w.readWord (mapWord p) .read true).onRun fun r => { r with good := good, entry := w.store.map[p] }
    | none => w
  | .writeMap, .mapRepair _ p =>
    let w := w.writeMap p w.ctl.mirror[p]
    w.onRun fun r => { r with good := w.mapGood p, entry := w.ctl.mirror[p] }
  | .writeMap, .remap p =>
    let w := w.writeMap p ⟨false, 0, (w.ctl.mirror[p]).gen⟩
    w.onRun fun r => { r with good := w.mapGood p }
  | .writeMark, .markWrite closing =>
    let m : OutageMark := if closing then { w.sup.mark with valid := false } else w.sup.mark
    Work.writeMark { w with sup := { w.sup with mark := m } } m
  | .writeSettings, .settingsWrite item => w.writeSettingsWord w.ctl.settings (itemWord item)
  | .formatFirst, .format g n => w.writeFormat ⟨false, g, n⟩
  | .formatSettings k, .format _ _ =>
    Work.writeSettingsWord { w with ctl := { w.ctl with settings := w.ctl.settings.withWord Settings.default k } } Settings.default k
  | .formatMark, .format _ _ => Work.writeMark { w with sup := { w.sup with mark := ⟨false, 0, 0⟩ } } ⟨false, 0, 0⟩
  | .formatMap p, .format _ _ => w.formatMapWord p
  | .formatFrame f, .format g _ =>
    (List.range (frameSize g)).foldl (fun w k => w.wrote (frameWord g f k)) { w with store := w.store.setFrame f Frame.blank }
  | .formatLast, .format g n => Work.writeFormat { w with ctl := { w.ctl with format := ⟨true, g, n⟩ } } ⟨true, g, n⟩
  | .readFrame, .plannerRead p f =>
    let pinned := ((w.ctx p).map (·.pinned)).getD false
    let x : Image := { frame := f, data := w.store.frame f, bad := w.badWords f }
    let w := w.readWholeFrame f .read (!pinned)
    { w with plan := { w.plan with images := upd w.plan.images p (some x) } }
  | _, _ => w

/-- The operation in progress makes its next access. -/
def Work.access (w : Work) : Work :=
  match w.ctl.current with
  | none => w
  | some r =>
    match r.todo with
    | [] => w
    | a :: rest =>
      let r := { r with todo := rest }
      let w : Work := { w with ctl := { w.ctl with current := some r } }
      match r.op.recordPocket, w.opContext r with
      | some p, some c => w.recordAccess r p c a
      | _, _ => w.plainAccess r a

/-- The operation in progress runs until nothing is left to do or it has become a move. -/
def Work.runPlain : Nat → Work → Work
  | 0, w => w
  | n + 1, w =>
    match w.ctl.current with
    | some r => if r.move.isSome || r.todo.isEmpty then w else Work.runPlain n w.access
    | none => w

/-- The operation in progress runs until nothing is left to do, move and all. -/
def Work.runAll : Nat → Work → Work
  | 0, w => w
  | n + 1, w =>
    match w.ctl.current with
    | some r => if r.todo.isEmpty then w else Work.runAll n w.access
    | none => w

/-- More accesses than any operation makes: FORMAT, the longest, makes 95. -/
def accessLimit : Nat := 128

/-! ### The end of an operation -/

/-- What a static write does at its end (R28, R29, R76): a new heat level is desired, and NO_CREASE added in CREASE ends
the crease, but for a write that ends in SAVE, where no fast field changes (R141). It ends it also between the cool exit
and the end of its read. DESIGN CHOICE: log entry 64. -/
def Work.staticChanged (w : Work) (p : Pocket) (change : StaticChange) : Work :=
  match change with
  | .level v => (w.onCtx p fun c => { c with heatLevel := c.heatLevel.map fun _ => v }).rederive p
  | .options set _ =>
    if w.part = .active ∧ set.noCrease ∧ w.recordIs p (·.phase == .crease) then w.endCrease p else w

/-- The image of a LOOKUP, its static fields as the read gave them (R67, R68). -/
def State.lookupImage (s : State) (r : Running) (p : Pocket) (copy : LookupCopy) (st : Statics) : List Byte :=
  imageBytes s.geometry p.val copy.gen st copy.fast copy.shadow copy.writeOpen (((s.opContext r).map (·.pinned)).getD false)

/-- What the end of an operation on a record brings about, with the static fields it read or a move kept. -/
def Work.recordOpEnds (w : Work) (r : Running) (st : Statics) : Work :=
  match r.op with
  | .checkpoint p => w.checkpointEnded p
  | .saveWrite p => w.checkpointEnded p
  | .move p _ commit => if commit then w.checkpointEnded p else w
  | .staticRead p purposes => purposes.foldl (fun w why => w.fillRead p st why) w
  | .lookupRead p copy => w.respond .ok (w.lookupImage r p copy st)
  | .staticWrite p change clamped =>
    if r.good then (w.staticChanged p change).respond (if clamped then .okClamped else .ok) [] else w.respond .storeFault []
  | _ => w

/-- An operation on a record that has not become a move ends. -/
def Work.endRecordOp (w : Work) (r : Running) : Work := (w.recordOpEnds r r.statics).endOp r

/-- A move ends (R42): the record is desired at the heat level the move kept, and the operation that became the move
ends as its own rule says. DEDUCED: log entry 45. -/
def Work.endMove (w : Work) (r : Running) (m : MoveData) : Work :=
  let w := match r.op.recordPocket with
    | some p => (w.onCtx p fun c => { c with heatLevel := c.heatLevel.map fun _ => m.statics.level }).rederive p
    | none => w
  (w.recordOpEnds r m.statics).endOp r

/-- The context OPEN creates (R55). -/
def State.openContext (s : State) (r : Running) (gen heat : Nat) : Context :=
  { gen := gen, frame := r.target, fast := openFast heat (s.setting 18), dirty := 0, since := 0
    shadow := { stamp := (s.store.frame r.target).header.stamp, plan := none, saved := false }
    timer := s.setting 1, checkpoint := .idle, pinned := false, tumbleLeft := none, awaitCool := false
    tumbleGranted := false, interval := 0, length := 0, heatLevel := none, stampPending := false, commitMove := false }

/-- OPEN ends (R24, R44): the context is created and the request answered; or the map fault is reported and the frame
goes back. -/
def Work.endOpen (w : Work) (r : Running) (p : Pocket) (gen heat : Nat) (clamped : Bool) : Work :=
  if r.good then
    (((w.setCtx p (some (w.openContext r gen heat))).rederive p).respond (if clamped then .okClamped else .ok) (beBytes 2 gen)).endOp r
  else
    let w : Work := { w with ctl := { w.ctl with mirror := upd w.ctl.mirror p ⟨false, 0, gen⟩ } }
    (((w.writeHeader r.target (w.withdrawnHeader r.target .free)).freeFrame r.target).respond .mapFault []).endOp r

/-! ### Serving (R40) -/

/-- An operation that ends the moment it is served. -/
def Work.endsAtOnce (w : Work) (op : StoreOp) : Work := w.endOp (Running.of op [])

/-- The accesses of OPEN into its frame (R44). -/
def openTodo (g : Geometry) : List Access :=
  ((List.range (frameSize g)).drop 1).map Access.openWrite ++ [.openHeader, .openMap]

/-- The accesses of FORMAT (R193). -/
def formatTodo (g : Geometry) : List Access :=
  .formatFirst :: ((List.range 12).map fun k => Access.formatSettings (k + 1)) ++ .formatMark :: allPockets.map Access.formatMap
    ++ (List.range (frameCount g)).map Access.formatFrame ++ [.formatLast]

/-- A checkpoint is served (R62, R63). -/
def Work.serveCheckpoint (w : Work) (p : Pocket) : Work :=
  match w.ctx p with
  | none => w.endsAtOnce (.checkpoint p)
  | some c =>
    if c.pinned || (c.dirty == 0 && !c.stampPending) then (w.checkpointEnded p).endsAtOnce (.checkpoint p)
    else (w.onCtx p fun c => { c with checkpoint := .writing }).serveOp (Running.of (.checkpoint p) (checkpointTodo w.geometry c))

/-- A move that waited is served: dropped when its record is gone or has left the frame, and without a free frame its
record is pinned (R42, R43, R66). It reads every static word, one that an earlier operation found uncorrectable too.
DESIGN CHOICE: log entry 63. A move that writes a commit makes the checkpoint state WRITING as it is served, and no other
move touches that state. DESIGN CHOICE: log entry 72. -/
def Work.serveMove (w : Work) (p : Pocket) (frame : Nat) (commit : Bool) : Work :=
  match w.ctx p with
  | none => w.endsAtOnce (.move p frame commit)
  | some c =>
    if c.frame ≠ frame then w.endsAtOnce (.move p frame commit)
    else
      match w.beginMove (Running.of (.move p frame commit) []) frame [] with
      | some w => if commit then w.onCtx p fun c => { c with checkpoint := .writing } else w
      | none => (if commit then (w.pin p).checkpointEnded p else w.pin p).endsAtOnce (.move p frame commit)

/-- The oldest waiting operation begins service, or ends at once. -/
def Work.serve1 (w : Work) (op : StoreOp) : Work :=
  match op with
  | .translation _ => w.serveOp (Running.of op [.readMap])
  | .staticRead p ps =>
    if (w.ctx p).isNone then w.endsAtOnce op
    else w.serveOp (Running.of op ((if ps = [.heatLevel] then [1] else staticWords w.geometry).map Access.readStatic))
  | .lookupRead p _ =>
    if (w.ctx p).isNone then (w.respond .noRecord []).endsAtOnce op
    else w.serveOp (Running.of op ((staticWords w.geometry).map Access.readStatic))
  | .staticWrite p _ _ =>
    match w.ctx p with
    | none => (w.respond .noRecord []).endsAtOnce op
    | some c => if c.pinned then (w.respond .storeFault []).endsAtOnce op else w.serveOp (Running.of op [.staticMerge])
  | .checkpoint p => w.serveCheckpoint p
  | .saveWrite _ => w.endsAtOnce op
  | .openRecord _ _ _ _ _ =>
    match w.ctl.free with
    | [] => (w.respond .noFrame []).endsAtOnce op
    | f :: rest =>
      Work.serveOp { w with ctl := { w.ctl with free := rest } } { Running.of op (openTodo w.geometry) with target := f }
  | .retire _ _ _ _ => w.serveOp (Running.of op [.retireMap, .retireHeader])
  | .move p frame commit => w.serveMove p frame commit
  | .mapRepair _ _ => w.serveOp (Running.of op [.writeMap])
  | .remap _ => w.serveOp (Running.of op [.writeMap])
  | .markWrite _ => w.serveOp (Running.of op [.writeMark])
  | .settingsWrite _ => w.serveOp (Running.of op [.writeSettings])
  | .format g _ => w.serveOp (Running.of op (formatTodo g))
  | .plannerRead _ _ => w.serveOp (Running.of op [.readFrame])

/-- The oldest operation is served when the store is idle (R40). -/
def Work.serveNext (w : Work) : Work :=
  match w.ctl.current, w.ctl.queue with
  | none, op :: rest => Work.serve1 { w with ctl := { w.ctl with queue := rest } } op
  | _, _ => w

end Sys2Proof.Machine
end

