-- ==== Sys2Proof/Machine/Scan.lean ====
section
/-! DEFINITION. The START scan (section 2.8, R190) and the patrol (section 2.6). -/

namespace Sys2Proof.Machine

/-! ### The header area (R51, R190) -/

/-- Whether the format word fails the scan (R51, R190). -/
def State.formatFails (s : State) : Bool :=
  !s.readable 0 || !s.store.format.valid || !countAgrees s.store.format.geometry s.store.format.count

/-- The settings copy as the scan loads it: the items of an unreadable word at their defaults (R190). -/
def State.scannedSettings (s : State) : Settings :=
  Vector.ofFn fun i => if s.readable (itemWord i.val) then s.store.settings[i] else itemDefault i.val

/-- Words 0..12 are read and judged, and the copies, the conditions and the start enable mask are loaded (R34, R51, R115,
R190, R194). -/
def Work.scanHeader (w : Work) : Work :=
  let bad := w.formatFails
  let copy := w.scannedSettings
  let wordBad : Vector Bool 13 := Vector.ofFn fun k => k.val != 0 && !w.readable k.val
  let itemBad : Vector Bool 96 := Vector.ofFn fun i =>
    itemExists i.val && w.readable (itemWord i.val) && !itemInRange i.val (copy.item i.val)
  let w := (List.range 13).foldl (fun w n => w.readWord n .scan true) w
  { w with
    ctl := { w.ctl with
      format := if bad then ⟨false, .standard, 0⟩ else w.store.format
      settings := copy, loaded := copy, formatBad := bad, wordBad := wordBad, itemBad := itemBad, scanning := false }
    arb := { w.arb with mask := BitVec.ofNat 32 (copy.item 31) } }

/-- Every commission item is GOOD (R190, R196). -/
def StoreCtl.headerGood (c : StoreCtl) : Bool := !c.formatBad && !c.wordBad.contains true && !c.itemBad.contains true

/-- The outage mark is read and handed to the supervisor; one that cannot be read is rewritten not valid with sequence 0
(R51). -/
def Work.scanMark (w : Work) : Work :=
  let ok := w.readable markWord
  let w := w.readWord markWord .scan true
  let w := if ok then w else w.writeMark ⟨false, 0, 0⟩
  { w with sup := { w.sup with mark := w.store.mark } }

/-! ### The map and the frames (R51) -/

/-- A map word is read into the mirror; an entry of an address P..31 is made invalid. -/
def Work.scanMapWord (w : Work) (p : Pocket) : Work :=
  let ok := w.readable (mapWord p)
  let w := w.readWord (mapWord p) .scan true
  let e := if ok then w.store.map[p] else MapEntry.none
  let w : Work := { w with ctl := { w.ctl with mirror := upd w.ctl.mirror p e } }
  if w.count ≤ p.val ∧ (e.valid ∨ !ok) then w.writeMap p ⟨false, 0, e.gen⟩ else w

/-- Whether a body word of a frame cannot be read. -/
def State.bodyBad (s : State) (f : Nat) : Bool := (s.badWords f).any (· != 0)

/-- A frame is withdrawn: its header is written QUARANTINED and it joins the quarantine set (R46). -/
def Work.withdraw (w : Work) (f : Nat) : Work := (w.writeHeader f (w.withdrawnHeader f .quarantined)).quarantineFrame f

/-- A frame is read: a quarantined one by its header alone, one whose header cannot be read withdrawn, any other whole. -/
def Work.scanFrame (w : Work) (markLost : Bool) (f : Nat) : Work :=
  let headAt := frameWord w.geometry f 0
  let st := (w.store.frame f).header.state
  let ok := w.readable headAt
  let w := w.readWord headAt .scan (st != .quarantined)
  if !ok then w.withdraw f
  else if st = .quarantined then w.quarantineFrame f
  else
    let w := ((List.range (frameSize w.geometry)).drop 1).foldl (fun w k => w.readWord (frameWord w.geometry f k) .scan true) w
    if st = .free then (if w.bodyBad f then w.withdraw f else w)
    else if markLost && w.readable (frameWord w.geometry f (stampWord w.geometry)) then
      w.writeFrameWord f (stampWord w.geometry) { w.store.frame f with stamp := none }
    else w

/-! ### Resolution (R52) -/

/-- The frames of the geometry. -/
def State.frameNumbers (s : State) : List Nat := List.range (frameCount s.geometry)

/-- Whether a frame is a live candidate for pocket `p`. -/
def State.candidate (s : State) (p : Pocket) (f : Nat) : Bool :=
  let h := (s.store.frame f).header
  h.state == .live && h.pocket == p.val && f < frameCount s.geometry

/-- A sound candidate. -/
def State.sound (s : State) (f : Nat) : Bool := !s.bodyBad f && !(s.store.frame f).header.writeOpen

/-- The candidate chosen for an entry to rebuild. -/
def State.chosen (s : State) (p : Pocket) : Option Nat :=
  let c := s.frameNumbers.filter (s.candidate p)
  match c.find? s.sound with
  | some f => some f
  | none =>
    match c.find? fun f => !(s.store.frame f).header.writeOpen with
    | some f => some f
    | none => c.head?

/-- The map entry of a pocket is settled against the frames. -/
def Work.resolve (w : Work) (p : Pocket) (rebuild : Bool) : Work :=
  let e := w.ctl.mirror[p]
  if rebuild then
    match w.chosen p with
    | some f => w.writeMap p ⟨true, f, (w.store.frame f).header.gen⟩
    | none => w.writeMap p MapEntry.none
  else if e.valid && !(w.candidate p e.frame && (w.store.frame e.frame).header.gen == e.gen) then
    (w.writeMap p ⟨false, 0, e.gen⟩).mark .recordLost p
  else w

/-- The record frame of a pocket, as the mirror names it. -/
def State.recordFrame (s : State) (p : Pocket) : Option Nat :=
  if (s.ctl.mirror[p]).valid then some (s.ctl.mirror[p]).frame else none

/-- A LIVE frame that no pocket's entry names is an orphan: it is freed, or withdrawn when a word of it cannot be read. -/
def Work.settleOrphan (w : Work) (f : Nat) : Work :=
  let named := w.pockets.any fun p => w.recordFrame p == some f
  if (w.store.frame f).header.state = .live ∧ !named then
    if w.bodyBad f then w.withdraw f else w.writeHeader f (w.withdrawnHeader f .free)
  else w

/-- The image of a record frame as the scan found it (R53). -/
def State.scanImage (s : State) (f : Nat) : Image := { frame := f, data := s.store.frame f, bad := s.badWords f }

/-- The whole scan of a part whose header was accepted. -/
def Work.scanBody (w : Work) : Work :=
  let w := allPockets.foldl (fun w p => if w.count ≤ p.val then w.setLinkState p .absent none else w) w
  let markLost := !w.readable markWord
  let w := w.scanMark
  let lost := w.pockets.filter fun p => !w.readable (mapWord p)
  let w := allPockets.foldl (fun w p => w.scanMapWord p) w
  let w := w.frameNumbers.foldl (fun w f => w.scanFrame markLost f) w
  let w := w.pockets.foldl (fun w p => w.resolve p (lost.contains p)) w
  let w := w.frameNumbers.foldl (fun w f => w.settleOrphan f) w
  let free := w.frameNumbers.filter fun f => (w.store.frame f).header.state == .free && !w.quarantined f
  let images := Vector.ofFn fun p => if p.val < w.count then (w.recordFrame p).map w.scanImage else none
  { w with ctl := { w.ctl with free := free, scanDone := true }, plan := { w.plan with images := images } }

/-- The START scan (R51, R52): a header that fails leads to COMMISSION, an accepted one to PLAN once mains is settled
(R139). -/
def Work.startScan (w : Work) : Work :=
  let w := w.scanHeader
  if w.ctl.headerGood then
    let w := w.scanBody
    if w.sup.settled then w.enterPlan false else w
  else (w.enter .commission).broadcastSafe

/-! ### The patrol (R47, R48) -/

/-- Whether a store word belongs to a quarantined frame. -/
def State.inQuarantine (s : State) (n : Nat) : Bool := 46 ≤ n && s.quarantined ((n - 46) / frameSize s.geometry)

/-- The next word the patrol reads: the cursor, words of quarantined frames passed over. -/
def State.patrolWord (s : State) : Nat → Nat → Nat
  | 0, n => n
  | k + 1, n => if s.inQuarantine n then s.patrolWord k ((n + 1) % Config.storeWords) else n

/-- A header word is read: one that cannot be read is rewritten from its copy and read back (R34). -/
def Work.patrolHeader (w : Work) (n : Nat) : Work :=
  let ok := w.readable n
  let w := w.readWord n .patrol true
  if ok then w
  else
    let w :=
      if n = 0 then w.writeFormat w.ctl.format
      else if n = markWord then w.writeMark w.sup.mark
      else w.writeSettingsWord w.ctl.settings n
    let w := w.failAfterWrite n
    let good := w.readable n
    let w := w.readWord n .read true
    if good then w else w.markPart .store

/-- A map word is read: one that cannot be read is rewritten from the mirror and read back (R37). -/
def Work.patrolMap (w : Work) (p : Pocket) : Work :=
  let ok := w.readable (mapWord p)
  let w := w.readWord (mapWord p) .patrol true
  if ok then w else w.writeMap p w.ctl.mirror[p]

/-- The pocket whose context names a frame. -/
def State.holderOf (s : State) (f : Nat) : Option (Pocket × Context) :=
  allPockets.findSome? fun p =>
    match s.ctx p with
    | some c => if c.frame = f then some (p, c) else none
    | none => none

/-- A frame word is read, and acted on by what its frame is (R48). In a LIVE frame whose record has no context an
uncorrectable word is offered to the latch, and nothing more is done. DESIGN CHOICE: log entry 50. -/
def Work.patrolFrame (w : Work) (n f : Nat) : Work :=
  let ok := w.readable n
  match w.holderOf f with
  | some (p, c) =>
    let w := w.readWord n .patrol (!c.pinned)
    if ok ∨ c.pinned ∨ w.part ≠ .active ∨ w.ctl.queue.any (·.isMoveOf p) then w else w.enqueue (.move p f false)
  | none =>
    let w := w.readWord n .patrol true
    if ok ∨ !w.ctl.free.contains f then w
    else Work.withdraw { w with ctl := { w.ctl with free := w.ctl.free.filter (· != f) } } f

/-- A patrol read falls due: made at once on an idle store, otherwise owed (R47). -/
def Work.patrol (w : Work) : Work :=
  if w.ctl.current.isSome || !w.ctl.queue.isEmpty then { w with ctl := { w.ctl with patrolOwed := true } }
  else
    let n := w.patrolWord Config.storeWords w.ctl.cursor
    let w : Work := { w with ctl := { w.ctl with cursor := (n + 1) % Config.storeWords, patrolOwed := false } }
    if n < 14 then w.patrolHeader n
    else if h : n - 14 < 32 then w.patrolMap ⟨n - 14, h⟩
    else w.patrolFrame n ((n - 46) / frameSize w.geometry)

end Sys2Proof.Machine
end

