-- ==== Sys2Proof/Machine/Report.lean ====
section
/-! DEFINITION. The payloads of STATUS, EVENTS, STORE_REPORT and GET_SETTING (section 11.2). -/

namespace Sys2Proof.Machine

/-! ### STATUS (R187) -/

/-- Milliseconds shown as whole seconds, a second begun counted whole (log entry 23). -/
def shownSeconds (ms : Nat) : Nat := ceilDiv ms 1000

/-- The link states, two pockets in a byte, the even pocket in bits 3..0. -/
def State.linkStateBytes (s : State) : List Byte :=
  (List.finRange 16).map fun k =>
    BitVec.ofNat 8 ((s.link.pockets[2 * k.val]).state.code + 16 * (s.link.pockets[2 * k.val + 1]).state.code)

/-- The byte of a held slot. -/
def Slot.byte (x : Slot) : Byte := BitVec.ofNat 8 (x.pocket.val + flagBit 5 (x.stage == .starting) + 128)

/-- The four slot bytes, held slots first in the order of their grants (log entry 24). -/
def State.slotBytes (s : State) : List Byte := ((s.arb.slots.map Slot.byte) ++ List.replicate 4 0).take 4

/-- The number of requests in the start request set. -/
def State.requestCount (s : State) : Nat := (allPockets.filter fun p => (s.request p).isSome).length

/-- The reserved sum and wait-list length of a supply phase. -/
def State.phaseBytes (s : State) (x : SupplyPhase) : List Byte := beBytes 1 (s.reservedSum x) ++ beBytes 1 (s.waitList x).length

/-- The save report; zeros when there is none. -/
def State.saveReportBytes (s : State) : List Byte :=
  let r := s.sup.report.getD ⟨0, 0, 0, 0⟩
  beBytes 1 (min 255 r.charged) ++ beBytes 1 r.written ++ beBytes 1 r.unsaved ++ beBytes 1 r.pinned

/-- The 45 bytes of a STATUS response. -/
def State.statusPayload (s : State) : List Byte :=
  beBytes 1 (s.part.code + flagBit 3 s.sup.settled) ++ beBytes 4 s.sup.uptime ++ s.linkStateBytes ++ s.slotBytes
    ++ beBytes 1 s.requestCount ++ s.phaseBytes .a ++ s.phaseBytes .b ++ s.phaseBytes .c
    ++ beBytes 1 (s.sag.count + flagBit 7 s.sag.active) ++ beBytes 1 (shownSeconds s.sag.windowMs)
    ++ beBytes 2 (shownSeconds s.sag.throttleMs) ++ beBytes 3 s.backup.timer
    ++ beBytes 1 (flagBit 0 s.backup.running + flagBit 1 s.backup.valid + flagBit 2 s.sup.report.isSome)
    ++ s.saveReportBytes ++ beBytes 1 s.contextCount

/-! ### EVENTS (R186) -/

/-- The four bytes of a pocket mask (R197). -/
def maskBytes (m : Mask) : List Byte := beBytes 4 m.toNat

/-- The 25 bytes of an EVENTS response. -/
def EventSet.payload (e : EventSet) : List Byte :=
  beBytes 1 (flagBit 0 e.stateChange + flagBit 1 e.store + flagBit 2 e.throttle) ++ maskBytes e.phase ++ maskBytes e.hold
    ++ maskBytes e.resume ++ maskBytes e.link ++ maskBytes e.retired ++ maskBytes e.recordLost

/-! ### STORE_REPORT (R50, R188) -/

/-- The set of pinned pockets. -/
def State.pinnedSet (s : State) : Mask :=
  allPockets.foldl (fun m p => m.put p (((s.ctx p).map (·.pinned)).getD false)) 0

/-- The five bytes of the error latch. -/
def ErrorLatch.bytes (l : ErrorLatch) : List Byte :=
  beBytes 1 l.state.code ++ beBytes 1 l.area.code ++ beBytes 1 l.frame ++ beBytes 1 l.word ++ beBytes 1 l.source.code

/-- The 17 bytes of a STORE_REPORT response. -/
def State.storeReportPayload (s : State) : List Byte :=
  s.ctl.latch.bytes ++ beBytes 2 s.ctl.correctable ++ beBytes 1 s.ctl.free.length ++ beBytes 1 s.quarantineCount
    ++ maskBytes s.pinnedSet ++ maskBytes s.ctl.mapFault

/-! ### GET_SETTING (R195) -/

/-- The condition of an item, of the word that holds it, and of the format. -/
def StoreCtl.conditions (c : StoreCtl) (i : Nat) : Nat :=
  flagBit 0 (if h : i < 96 then c.itemBad[i] else false)
    + flagBit 1 (if h : itemWord i < 13 then c.wordBad[itemWord i] else false) + flagBit 2 c.formatBad

/-- The 5 bytes of a GET_SETTING response. -/
def StoreCtl.settingPayload (c : StoreCtl) (i : Nat) : List Byte := beBytes 4 (c.settings.item i) ++ beBytes 1 (c.conditions i)

end Sys2Proof.Machine
end

