-- ==== Sys2Proof/Machine/HostOps.lean ====
section
/-! DEFINITION. Requests at the host port: how a frame is taken (R178 to R181), what each request's owner does with it at
once, and what a request on a record does once it is translated (R23 to R31, R38). -/

namespace Sys2Proof.Machine

/-! ### Requests on a record, after translation -/

/-- START (R25): a STAGED or held record goes to HEAT, a STAGED one without heat time on to COOL (R6). -/
def Work.takeStart (w : Work) (p : Pocket) (c : Context) : Work :=
  let f := c.fast
  let held := f.hold == .door || f.hold == .resumeAsk || f.hold == .heatFault
    || (f.hold == .link && (w.pocketLink p).state == .online)
  if f.phase = .staged ∧ f.hold = .none then
    let w := w.onFast p fun f => { f with phase := .heat }
    let w := if f.heat = 0 then w.heatExit p else (w.mark .phase p).demandCheckpoint p
    ((w.makeRequest p (w.requestLevel p 7)).rederive p).respond .ok []
  else if f.phase = .heat ∧ held then
    let w := ((w.onFast p fun f => { f with hold := .none }).mark .hold p).demandCheckpoint p
    ((w.makeRequest p (w.requestLevel p 7)).rederive p).respond .ok []
  else w.respond .state []

/-- EXTEND (R26). -/
def Work.takeExtend (w : Work) (p : Pocket) (c : Context) (seconds : Nat) : Work :=
  if c.fast.phase = .staged ∨ c.fast.phase = .heat then
    let x := extended c.fast.heat seconds
    (w.onFast p fun f => { f with heat := x.1 }).respond (if x.2 then .okClamped else .ok) []
  else w.respond .state []

/-- END_HEAT (R27): a hold that it clears is followed by a start request (R16). DEDUCED: log entry 44. -/
def Work.takeEndHeat (w : Work) (p : Pocket) (c : Context) : Work :=
  if c.fast.phase = .heat then
    let clears := c.fast.hold == .resumeAsk || c.fast.hold == .heatFault
    let w := if clears then (w.onFast p fun f => { f with hold := .none }).mark .hold p else w
    let w := w.heatExit p
    let w := if clears then w.makeRequest p (w.requestLevel p 7) else w
    (w.rederive p).respond .ok []
  else w.respond .state []

/-- SET_HEAT (R28). -/
def Work.takeSetHeat (w : Work) (p : Pocket) (level : Nat) : Work :=
  w.enqueue (.staticWrite p (.level (clampTo 1 3 level)) (clampTo 1 3 level != level))

/-- SET_OPTIONS (R29). A mask that names an option on both sides is refused with RANGE after every other check.
DESIGN CHOICE: log entry 62. -/
def Work.takeSetOptions (w : Work) (p : Pocket) (set clear : Byte) : Work :=
  if Options.clash (Options.ofByte set) (Options.ofByte clear) then w.respond .range []
  else w.enqueue (.staticWrite p (.options (Options.ofByte set) (Options.ofByte clear)) false)

/-- LOOKUP (R67): the fast fields and the shadow are copied and the static read is enqueued. -/
def Work.takeLookup (w : Work) (p : Pocket) (c : Context) : Work :=
  w.enqueue (.lookupRead p { gen := c.gen, fast := c.fast, shadow := c.shadow, writeOpen := c.checkpoint == .writing })

/-- OPEN (R24): its operation is enqueued with the values clamped and the generation advanced by one. -/
def Work.takeOpen (w : Work) (p : Pocket) (e : MapEntry) (a : OpenArgs) : Work :=
  w.enqueue (.openRecord p (nextGeneration e.gen) (openStatics w.geometry a) (openHeat a) (openClamped w.geometry a))

/-- Whether a request is taken on a PENDING record (R23, check 4). -/
def takenWhilePending (req : HostReq) : Bool :=
  match req with
  | .lookup _ | .extend _ _ | .retire _ => true
  | _ => false

/-- A request whose record was found, on the record as it stands (R23). -/
def Work.onRecord (w : Work) (req : HostReq) (p : Pocket) (c : Context) : Work :=
  match req with
  | .start _ => w.takeStart p c
  | .extend _ n => w.takeExtend p c n
  | .endHeat _ => w.takeEndHeat p c
  | .setHeat _ n => w.takeSetHeat p n
  | .setOptions _ set clear => w.takeSetOptions p set clear
  | .retire _ => w.retireRecord p true
  | .lookup _ => w.takeLookup p c
  | _ => w

/-- A request on the record of a map-faulted pocket: MAP_FAULT, but for RETIRE of a record that has a context (R23,
R39). -/
def Work.onMapFault (w : Work) (req : HostReq) (p : Pocket) : Work :=
  match req with
  | .retire _ => if (w.ctx p).isSome then w.retireRecord p true else w.respond .mapFault []
  | _ => w.respond .mapFault []

/-- A translated request goes on with the map entry that translation found (R23, R38), or as that of a map-faulted pocket
when the pocket has become one while the read waited; in SAVE and DARK it is answered POWER_FAIL (R141, log entry 17). -/
def Work.translated (w : Work) (req : HostReq) (p : Pocket) (e : MapEntry) : Work :=
  if w.part ≠ .active then w.respond .powerFail []
  else if w.ctl.mapFault.has p then w.onMapFault req p
  else
    match req with
    | .openRecord _ a => if e.valid then w.respond .exists [] else w.takeOpen p e a
    | _ =>
      match (if e.valid then w.ctx p else none) with
      | none => w.respond .noRecord []
      | some c =>
        if c.fast.status = .pending ∧ !takenWhilePending req then w.respond .state [] else w.onRecord req p c

/-! ### What an owner does at once -/

/-- The pocket of a request, below P (R23, R181). -/
def State.pocketInRange (s : State) (p : Nat) : Option Pocket :=
  if h : p < 32 ∧ p < s.count then some ⟨p, h.1⟩ else none

/-- A request on a record: range, map fault, and then the translation read is enqueued (R38). -/
def Work.ownTranslated (w : Work) (req : HostReq) (p : Nat) : Work :=
  match w.pocketInRange p with
  | none => w.respond .range []
  | some p => if w.ctl.mapFault.has p then w.respond .mapFault [] else w.enqueue (.translation req)

/-- RETIRE: on a map-faulted pocket it is taken without a translation (R39). -/
def Work.ownRetire (w : Work) (p : Nat) : Work :=
  match w.pocketInRange p with
  | none => w.respond .range []
  | some q =>
    if w.ctl.mapFault.has q then w.onMapFault (.retire p) q else w.enqueue (.translation (.retire p))

/-- The payload of HOLD and RELEASE (R116, R117). -/
def State.holdPayload (s : State) (p : Pocket) : List Byte :=
  beBytes 1 (flagBit 0 (s.arb.mask.has p) + flagBit 1 (s.slotOf p).isSome)

/-- HOLD (R116). -/
def Work.ownHold (w : Work) (p : Nat) : Work :=
  match w.pocketInRange p with
  | none => w.respond .range []
  | some p => Work.respond { w with arb := { w.arb with mask := w.arb.mask.put p false } } .ok (w.holdPayload p)

/-- RELEASE (R117). -/
def Work.ownRelease (w : Work) (p : Nat) : Work :=
  match w.pocketInRange p with
  | none => w.respond .range []
  | some p => Work.respond { w with arb := { w.arb with mask := w.arb.mask.put p true }, grant := true } .ok (w.holdPayload p)

/-- HOLD_MASK (R117). -/
def Work.ownHoldMask (w : Work) (set clear : Mask) : Work :=
  if set &&& clear != 0 || (Mask.pockets (set ||| clear)).any fun p => w.count ≤ p.val then w.respond .range []
  else
    Work.respond { w with arb := { w.arb with mask := (w.arb.mask ||| set) &&& ~~~ clear }, grant := w.grant || set != 0 }
      .ok (maskBytes w.arb.mask)

/-- CLEAR_POCKET (R91, R189). The entries of the pocket stay in the link queue, and a probe is owed no more.
DESIGN CHOICE: log entries 73 and 76. -/
def Work.ownClearPocket (w : Work) (p : Nat) : Work :=
  match w.pocketInRange p with
  | none => w.respond .range []
  | some p =>
    let st := (w.pocketLink p).state
    if st = .fault ∨ st = .offline then
      ((w.setLinkState p .unknown none).onLink p fun l =>
        { l with startAttempts := 0, offlineMs := none, probeOwed := false }).respond .ok []
    else w.respond .state []

/-- REMAP (R39, R189). -/
def Work.ownRemap (w : Work) (p : Nat) : Work :=
  match w.pocketInRange p with
  | none => w.respond .range []
  | some p => if !w.ctl.mapFault.has p || (w.ctx p).isSome then w.respond .state [] else w.enqueue (.remap p)

/-- STATUS (R187), as it stands when taken. -/
def Work.ownStatus (w : Work) : Work := w.respond .ok w.statusPayload

/-- EVENTS returns the set and empties it (R186). -/
def Work.ownEvents (w : Work) : Work := Work.respond { w with events := EventSet.empty } .ok w.events.payload

/-- STORE_REPORT (R188). -/
def Work.ownStoreReport (w : Work) : Work := w.respond .ok w.storeReportPayload

/-- CLEAR_LATCH (R50, R188). -/
def Work.ownClearLatch (w : Work) : Work :=
  Work.respond { w with ctl := { w.ctl with latch := ErrorLatch.cleared, correctable := 0 } } .ok []

/-- ENTER_COMMISSION (R192). DEDUCED: log entry 46. A throttle that becomes inactive here sets no THROTTLE mark. DEDUCED:
log entry 67. The stopped sag timers are 0. DESIGN CHOICE: log entry 68. -/
def Work.ownEnterCommission (w : Work) : Work :=
  if w.contextCount ≠ 0 ∨ w.ctl.current.isSome ∨ !w.ctl.queue.isEmpty then w.respond .state []
  else
    let w := (w.enter .commission).removeEntries fun e => e.state != .inFlight
    let w : Work := { w with
      arb := { w.arb with requests := Vector.replicate 32 none, slots := [] }
      heat := HeatUnit.reset
      sag := SagThrottle.reset }
    w.broadcastSafe.respond .ok []

/-- The geometry of a FORMAT payload (R197). -/
def formatGeometry (g : Nat) : Option Geometry :=
  match g with
  | 0 => some .standard | 1 => some .compact | _ => none

/-- FORMAT (R193). -/
def Work.ownFormat (w : Work) (g n : Nat) : Work :=
  match formatGeometry g with
  | some x => if countAgrees x n then w.enqueue (.format x n) else w.respond .range []
  | none => w.respond .range []

/-- SET_SETTING (R194): the copy takes the value and the write of its word is enqueued. -/
def Work.ownSetSetting (w : Work) (i v : Nat) : Work :=
  if itemExists i && itemInRange i v then
    Work.enqueue { w with ctl := { w.ctl with settings := w.ctl.settings.withItem i v } } (.settingsWrite i)
  else w.respond .range []

/-- GET_SETTING (R195). -/
def Work.ownGetSetting (w : Work) (i : Nat) : Work :=
  if itemExists i then w.respond .ok (w.ctl.settingPayload i) else w.respond .range []

/-- The blocks other than the host port and the supply supervisor at their values after a reset (R196). -/
def Work.resetBlocks (w : Work) : Work :=
  { w with ctl := StoreCtl.reset, ctxs := noContexts, link := LinkCtl.reset, arb := Arbiter.reset, heat := HeatUnit.reset,
           sag := SagThrottle.reset, plan := Planner.reset }

/-- LEAVE_COMMISSION (R196). -/
def Work.ownLeaveCommission (w : Work) : Work :=
  if w.ctl.headerGood then (w.resetBlocks.enter .start).respond .ok [] else w.respond .state []

/-- A request passes to its owner (R181, step 4). -/
def Work.own (w : Work) (req : HostReq) : Work :=
  match req with
  | .openRecord p _ | .start p | .extend p _ | .endHeat p | .setHeat p _ | .setOptions p _ _ | .lookup p =>
    w.ownTranslated req p
  | .retire p => w.ownRetire p
  | .hold p => w.ownHold p
  | .release p => w.ownRelease p
  | .holdMask set clear => w.ownHoldMask set clear
  | .clearPocket p => w.ownClearPocket p
  | .remap p => w.ownRemap p
  | .status => w.ownStatus
  | .events => w.ownEvents
  | .storeReport => w.ownStoreReport
  | .clearLatch => w.ownClearLatch
  | .enterCommission => w.ownEnterCommission
  | .format g n => w.ownFormat g n
  | .setSetting i v => w.ownSetSetting i v
  | .getSetting i => w.ownGetSetting i
  | .leaveCommission => w.ownLeaveCommission

/-! ### The port -/

/-- Whether a request is taken in COMMISSION (section 9.2). -/
def takenInCommission (req : HostReq) : Bool :=
  match req with
  | .status | .events | .storeReport | .clearLatch | .getSetting _ | .format _ _ | .setSetting _ _ | .leaveCommission => true
  | _ => false

/-- Whether a request is taken in ACTIVE (section 9.2). -/
def takenInActive (req : HostReq) : Bool :=
  match req with
  | .format _ _ | .setSetting _ _ | .leaveCommission => false
  | _ => true

/-- The answer that the part state gives a request, if it is not taken (R181, step 3). -/
def turnedAway (part : PartState) (req : HostReq) : Option Result :=
  if req = .status then none
  else
    match part with
    | .start | .plan => some .notReady
    | .save | .dark => some .powerFail
    | .active => if takenInActive req then none else some .state
    | .commission => if takenInCommission req then none else some .state

/-- A frame begins: the status byte is shifted out, and in a REQUEST frame zeros follow it (R178). -/
def Work.shiftStatus (w : Work) : Work :=
  { w with port := { w.port with shiftedStatus := w.statusByte, shiftedBody := [] } }

/-- A REQUEST frame on a BUSY port is dropped (R179). -/
def Work.dropRequest (w : Work) : Work := { w with port := { w.port with dropped := true } }

/-- A request is taken into the request buffer: a waiting response is discarded and the port is BUSY (R178). -/
def Work.takeRequest (w : Work) (req : HostReq) : Work :=
  { w with port := { w.port with state := .busy, request := some req, response := none } }

/-- A complete REQUEST frame with a correct CRC arrives (R179, R181); `owner` is what the request's owner does. -/
def Work.requestFrame (w : Work) (req : HostReq) (owner : Work → Work) : Work :=
  let w := w.shiftStatus
  if w.port.state = .busy then w.dropRequest
  else
    let w := w.takeRequest req
    match turnedAway w.part req with
    | some r => w.respond r []
    | none => owner w

/-- Any other REQUEST frame: it is answered at once, or is the good request that its bytes spell (R179, R181). -/
def Work.rawFrame (w : Work) (bytes : List Byte) : Work :=
  match readFrame bytes with
  | .request req => w.requestFrame req (·.own req)
  | .answer r =>
    let w := w.shiftStatus
    if w.port.state = .busy then w.dropRequest else w.respond r []

/-- A FETCH frame in which `shifted` bytes follow the status byte (R180). -/
def Work.fetchFrame (w : Work) (shifted : Nat) : Work :=
  let out : Response := w.port.response.getD ⟨.notReady, []⟩
  let ready := w.port.state == .ready
  let body := if ready then out.bytes else Response.bytes ⟨.notReady, []⟩
  let done := ready && body.length ≤ shifted
  { w with port := { w.port with
      shiftedStatus := w.statusByte
      shiftedBody := body.take shifted
      dropped := false
      state := if done then .idle else w.port.state
      response := if done then none else w.port.response } }

end Sys2Proof.Machine
end

