-- ==== Sys2Proof/Machine/HostRequests.lean ====
section
/-! DEFINITION. The meanings of the host frames: the 22 requests, BAD_FRAME, DROPPED_REQUEST and FETCH (chapter 9). -/

namespace Sys2Proof.Machine

/-- A command that the part takes only while its core has supply (R140). -/
def powered (s : State) (body : Work → Work) : Host.Outcome State Fault Refusal :=
  .next (if s.powered then (body (Work.begin s)).finish else s)

/-- OPEN (R24). -/
def execOpenRecord (p : Nat) (a : OpenArgs) (s : State) : Host.Outcome State Fault Refusal :=
  powered s fun w => w.requestFrame (.openRecord p a) (·.ownTranslated (.openRecord p a) p)

/-- START (R25). -/
def execStart (p : Nat) (s : State) : Host.Outcome State Fault Refusal :=
  powered s fun w => w.requestFrame (.start p) (·.ownTranslated (.start p) p)

/-- EXTEND (R26). -/
def execExtend (p seconds : Nat) (s : State) : Host.Outcome State Fault Refusal :=
  powered s fun w => w.requestFrame (.extend p seconds) (·.ownTranslated (.extend p seconds) p)

/-- END_HEAT (R27). -/
def execEndHeat (p : Nat) (s : State) : Host.Outcome State Fault Refusal :=
  powered s fun w => w.requestFrame (.endHeat p) (·.ownTranslated (.endHeat p) p)

/-- SET_HEAT (R28). -/
def execSetHeat (p level : Nat) (s : State) : Host.Outcome State Fault Refusal :=
  powered s fun w => w.requestFrame (.setHeat p level) (·.ownTranslated (.setHeat p level) p)

/-- SET_OPTIONS (R29). -/
def execSetOptions (p : Nat) (set clear : Byte) (s : State) : Host.Outcome State Fault Refusal :=
  powered s fun w => w.requestFrame (.setOptions p set clear) (·.ownTranslated (.setOptions p set clear) p)

/-- RETIRE (R30, R39). -/
def execRetire (p : Nat) (s : State) : Host.Outcome State Fault Refusal :=
  powered s fun w => w.requestFrame (.retire p) (·.ownRetire p)

/-- LOOKUP (R31, R67). -/
def execLookup (p : Nat) (s : State) : Host.Outcome State Fault Refusal :=
  powered s fun w => w.requestFrame (.lookup p) (·.ownTranslated (.lookup p) p)

/-- HOLD (R116). -/
def execHold (p : Nat) (s : State) : Host.Outcome State Fault Refusal :=
  powered s fun w => w.requestFrame (.hold p) (·.ownHold p)

/-- RELEASE (R117). -/
def execRelease (p : Nat) (s : State) : Host.Outcome State Fault Refusal :=
  powered s fun w => w.requestFrame (.release p) (·.ownRelease p)

/-- HOLD_MASK (R117). -/
def execHoldMask (set clear : Mask) (s : State) : Host.Outcome State Fault Refusal :=
  powered s fun w => w.requestFrame (.holdMask set clear) (·.ownHoldMask set clear)

/-- CLEAR_POCKET (R91). -/
def execClearPocket (p : Nat) (s : State) : Host.Outcome State Fault Refusal :=
  powered s fun w => w.requestFrame (.clearPocket p) (·.ownClearPocket p)

/-- REMAP (R39). -/
def execRemap (p : Nat) (s : State) : Host.Outcome State Fault Refusal :=
  powered s fun w => w.requestFrame (.remap p) (·.ownRemap p)

/-- STATUS (R187). -/
def execStatus (s : State) : Host.Outcome State Fault Refusal := powered s fun w => w.requestFrame .status (·.ownStatus)

/-- EVENTS (R186). -/
def execEvents (s : State) : Host.Outcome State Fault Refusal := powered s fun w => w.requestFrame .events (·.ownEvents)

/-- STORE_REPORT (R188). -/
def execStoreReport (s : State) : Host.Outcome State Fault Refusal :=
  powered s fun w => w.requestFrame .storeReport (·.ownStoreReport)

/-- CLEAR_LATCH (R50). -/
def execClearLatch (s : State) : Host.Outcome State Fault Refusal :=
  powered s fun w => w.requestFrame .clearLatch (·.ownClearLatch)

/-- ENTER_COMMISSION (R192). -/
def execEnterCommission (s : State) : Host.Outcome State Fault Refusal :=
  powered s fun w => w.requestFrame .enterCommission (·.ownEnterCommission)

/-- FORMAT (R193). -/
def execFormat (g n : Nat) (s : State) : Host.Outcome State Fault Refusal :=
  powered s fun w => w.requestFrame (.format g n) (·.ownFormat g n)

/-- SET_SETTING (R194). -/
def execSetSetting (i v : Nat) (s : State) : Host.Outcome State Fault Refusal :=
  powered s fun w => w.requestFrame (.setSetting i v) (·.ownSetSetting i v)

/-- GET_SETTING (R195). -/
def execGetSetting (i : Nat) (s : State) : Host.Outcome State Fault Refusal :=
  powered s fun w => w.requestFrame (.getSetting i) (·.ownGetSetting i)

/-- LEAVE_COMMISSION (R196). -/
def execLeaveCommission (s : State) : Host.Outcome State Fault Refusal :=
  powered s fun w => w.requestFrame .leaveCommission (·.ownLeaveCommission)

/-- A REQUEST frame that is no good request (R179, R181). -/
def execBadFrame (bytes : List Byte) (s : State) : Host.Outcome State Fault Refusal := powered s fun w => w.rawFrame bytes

/-- A REQUEST frame that ends while the port is BUSY (R179); at any other moment there is none (log entry 5). -/
def execDroppedRequest (s : State) : Host.Outcome State Fault Refusal :=
  powered s fun w => if w.port.state = .busy then w.shiftStatus.dropRequest else w

/-- A FETCH frame (R180). -/
def execFetch (shifted : Nat) (s : State) : Host.Outcome State Fault Refusal := powered s fun w => w.fetchFrame shifted

end Sys2Proof.Machine
end

