-- ==== Sys2Proof/Machine/StoreEvents.lean ====
section
/-! DEFINITION. The meanings of the store's events: service, the ends of its operations, the START scan and the patrol
(chapters 2 and 3, section 7.4). An end makes the accesses that are still to be made, with the words that failed before
and during them (log entries 2 and 7); an end for which no operation stands has no effect (log entry 5). -/

namespace Sys2Proof.Machine

/-- The words found failed, as a store event meets them. -/
def Work.meet (w : Work) (found : Findings) : Work := { w.fail found.pre with post := found.post }

/-- The operation in progress, if it is one of those an end command names. -/
def State.inProgress (s : State) (f : StoreOp → Bool) : Option Running :=
  match s.ctl.current with
  | some r => if f r.op then some r else none
  | none => none

/-- An operation of the kind `f` runs to its end, and `done` says what its end brings about; one that becomes a move
goes on as that move. -/
def Work.endWhere (w : Work) (found : Findings) (f : StoreOp → Bool) (done : Running → Work → Work) : Work :=
  match w.inProgress f with
  | none => w
  | some _ =>
    let w := Work.runPlain accessLimit (w.meet found)
    match w.ctl.current with
    | some r => if r.move.isSome then w else done r w
    | none => w

/-- STORE_OPERATION_SERVE (R40). -/
def execStoreOperationServe (s : State) : Host.Outcome State Fault Refusal := powered s fun w => w.serveNext

/-- TRANSLATION_READ_END (R38): an entry that cannot be read is first repaired from the mirror. DEDUCED: log entry 18. One
that ends in SAVE has its repair served behind the kept operations, uncharged. DESIGN CHOICE: log entry 58. -/
def execTranslationReadEnd (found : Findings) (s : State) : Host.Outcome State Fault Refusal :=
  powered s fun w => w.endWhere found (fun op => match op with | .translation _ => true | _ => false) fun r w =>
    match r.op with
    | .translation req =>
      match reqPocket req with
      | some p => if r.good then (w.translated req p r.entry).endOp r else (w.enqueue (.mapRepair req p)).endOp r
      | none => w.endOp r
    | _ => w

/-- MAP_REPAIR_END (R38). -/
def execMapRepairEnd (found : Findings) (s : State) : Host.Outcome State Fault Refusal :=
  powered s fun w => w.endWhere found (fun op => match op with | .mapRepair _ _ => true | _ => false) fun r w =>
    match r.op with
    | .mapRepair req p => (if r.good then w.translated req p r.entry else w.respond .mapFault []).endOp r
    | _ => w

/-- STATIC_READ_END (R22, R45, R67). -/
def execStaticReadEnd (found : Findings) (s : State) : Host.Outcome State Fault Refusal :=
  powered s fun w => w.endWhere found
    (fun op => match op with | .staticRead _ _ => true | .lookupRead _ _ => true | _ => false) fun r w => w.endRecordOp r

/-- STATIC_WRITE_END (R65). -/
def execStaticWriteEnd (found : Findings) (s : State) : Host.Outcome State Fault Refusal :=
  powered s fun w => w.endWhere found (fun op => match op with | .staticWrite _ _ _ => true | _ => false) fun r w =>
    w.endRecordOp r

/-- CHECKPOINT_END (R62). -/
def execCheckpointEnd (found : Findings) (s : State) : Host.Outcome State Fault Refusal :=
  powered s fun w => w.endWhere found (fun op => match op with | .checkpoint _ => true | _ => false) fun r w =>
    w.endRecordOp r

/-- SAVE_WRITE_END (R146). -/
def execSaveWriteEnd (found : Findings) (s : State) : Host.Outcome State Fault Refusal :=
  powered s fun w => w.endWhere found (fun op => match op with | .saveWrite _ => true | _ => false) fun r w =>
    w.endRecordOp r

/-- MOVE_END (R42): of a move that was served, or of the operation that became one. DESIGN CHOICE: log entry 41. -/
def execMoveEnd (found : Findings) (s : State) : Host.Outcome State Fault Refusal :=
  powered s fun w =>
    match w.inProgress fun op => op.recordPocket.isSome with
    | none => w
    | some _ =>
      let w' := Work.runPlain accessLimit (w.meet found)
      match w'.inProgress fun op => op.recordPocket.isSome with
      | none => w
      | some r =>
        if r.move.isNone then w
        else
          let w' := Work.runAll accessLimit w'
          match w'.ctl.current with
          | some r =>
            match r.move with
            | some m => w'.endMove r m
            | none => w'
          | none => w'

/-- OPEN_OPERATION_END (R24, R44). -/
def execOpenOperationEnd (found : Findings) (s : State) : Host.Outcome State Fault Refusal :=
  powered s fun w => w.endWhere found (fun op => match op with | .openRecord _ _ _ _ _ => true | _ => false) fun r w =>
    match r.op with
    | .openRecord p gen _ heat clamped => w.endOpen r p gen heat clamped
    | _ => w

/-- RETIRE_MAP_WRITE_END (R44): the map write alone; the header write follows. -/
def execRetireMapWriteEnd (found : Findings) (s : State) : Host.Outcome State Fault Refusal :=
  powered s fun w =>
    match w.ctl.current with
    | some r => if r.todo = [.retireMap, .retireHeader] then (w.meet found).access else w
    | none => w

/-- RETIRE_OPERATION_END (R30, R44). -/
def execRetireOperationEnd (found : Findings) (s : State) : Host.Outcome State Fault Refusal :=
  powered s fun w => w.endWhere found (fun op => match op with | .retire _ _ _ _ => true | _ => false) fun r w =>
    match r.op with
    | .retire _ _ _ host => (if host then w.respond .ok [] else w).endOp r
    | _ => w

/-- REMAP_WRITE_END (R39). -/
def execRemapWriteEnd (found : Findings) (s : State) : Host.Outcome State Fault Refusal :=
  powered s fun w => w.endWhere found (fun op => match op with | .remap _ => true | _ => false) fun r w =>
    match r.op with
    | .remap p => (if r.good then (w.endMapFault p).respond .ok [] else w.respond .mapFault []).endOp r
    | _ => w

/-- MARK_WRITE_END (R143, R153, R172): in PLAN the closing write leads on to ACTIVE. -/
def execMarkWriteEnd (s : State) : Host.Outcome State Fault Refusal :=
  powered s fun w => w.endWhere ⟨[], []⟩ (fun op => match op with | .markWrite _ => true | _ => false) fun r w =>
    match r.op with
    | .markWrite closing =>
      let w := (if closing then w.completePlan else w).endOp r
      if closing ∧ w.part = .plan then w.enterActive else w
    | _ => w

/-- SETTINGS_WRITE_END (R194). -/
def execSettingsWriteEnd (s : State) : Host.Outcome State Fault Refusal :=
  powered s fun w => w.endWhere ⟨[], []⟩ (fun op => match op with | .settingsWrite _ => true | _ => false) fun r w =>
    match r.op with
    | .settingsWrite i =>
      let w : Work := { w with ctl := { w.ctl with
        wordBad := if h : itemWord i < 13 then w.ctl.wordBad.set (itemWord i) false h else w.ctl.wordBad
        itemBad := if h : i < 96 then w.ctl.itemBad.set i false h else w.ctl.itemBad } }
      (w.respond .ok []).endOp r
    | _ => w

/-- FORMAT_END (R193). -/
def execFormatEnd (found : Findings) (s : State) : Host.Outcome State Fault Refusal :=
  powered s fun w => w.endWhere found (fun op => match op with | .format _ _ => true | _ => false) fun r w =>
    let w : Work := { w with
      ctl := { w.ctl with formatBad := false, wordBad := Vector.replicate 13 false, itemBad := Vector.replicate 96 false }
      backup := { w.backup with timer := 0, running := false, secondMs := 0 } }
    (w.respond .ok []).endOp r

/-- PLANNER_FRAME_READ_END (R157). -/
def execPlannerFrameReadEnd (found : Findings) (s : State) : Host.Outcome State Fault Refusal :=
  powered s fun w => w.endWhere found (fun op => match op with | .plannerRead _ _ => true | _ => false) fun r w => w.endOp r

/-- START_SCAN_END (R51, R52, R190): the whole scan, made as one step (log entry 8). -/
def execStartScanEnd (found : Findings) (s : State) : Host.Outcome State Fault Refusal :=
  powered s fun w => if w.part = .start ∧ w.ctl.scanning then (w.meet found).startScan else w

/-- PATROL_READ (R47, R48). -/
def execPatrolRead (found : Findings) (s : State) : Host.Outcome State Fault Refusal :=
  powered s fun w => if w.part = .active ∨ w.part = .dark then (w.meet found).patrol else w

end Sys2Proof.Machine
end

