-- ==== Sys2Proof/Machine/ClockEvents.lean ====
section
/-! DEFINITION. The meanings of the clock events: the 1 s timebase step and the exits it leads to (sections 1.4, 3.3 and
4.4). -/

namespace Sys2Proof.Machine

/-! ### The crease clocks (R72) -/

/-- Lowers a count by one; 0 stays. -/
def lowered (n : Nat) : Nat := n - 1

/-- One step of crease progress and of the tumble time left (R72, items 1 and 2). -/
def stepProgress (cp : CreaseProgress) : CreaseProgress :=
  { cp with window := lowered cp.window, nextDue := if cp.tumbling then cp.nextDue else lowered cp.nextDue }

/-- A tumble ends normally (R75): a restart request that still stands leaves the set with it, and a restart that was granted
is no longer wanted. -/
def Work.endTumble (w : Work) (p : Pocket) : Work :=
  let last := w.recordIs p fun f => (f.progress.map (·.remaining)).getD 1 == 0
  let w := w.onCtx p fun c =>
    { c.change (fun f => { f with progress := f.progress.map fun cp => { cp with tumbling := false, nextDue := c.interval } }) with
      tumbleLeft := none, tumbleGranted := false }
  if last then w.endCrease p else (w.removeRequest p).rederive p

/-- A tumble falls due (R73). -/
def Work.tumbleDue (w : Work) (p : Pocket) : Work := w.makeRequest p (w.requestLevel p 3)

/-- The step of a record in CREASE without a hold, with its progress set up (R72). -/
def Work.stepCrease (w : Work) (p : Pocket) (c : Context) (cp : CreaseProgress) : Work :=
  let w := w.onCtx p fun c =>
    { c.change (fun f => { f with progress := f.progress.map stepProgress }) with
      tumbleLeft := if cp.tumbling then c.tumbleLeft.map lowered else c.tumbleLeft }
  if (stepProgress cp).window = 0 then w.endCrease p
  else if cp.tumbling ∧ (c.tumbleLeft.map lowered).getD 0 = 0 then w.endTumble p
  else if !cp.tumbling ∧ cp.nextDue = 1 then w.tumbleDue p
  else w

/-! ### The heat and cool clocks (R17, R18) -/

/-- The step of a record in HEAT without a hold (R17). -/
def Work.stepHeat (w : Work) (p : Pocket) (f : Fast) : Work :=
  if w.heatConfirmed p then
    let w := w.onFast p fun f => { f with heat := lowered f.heat }
    if lowered f.heat = 0 then w.heatExit p else w
  else w

/-- The step of a record in COOL without a hold, whose cool remaining has been set (R18, R173). -/
def Work.stepCool (w : Work) (p : Pocket) (f : Fast) : Work :=
  if w.motorConfirmed p then
    let w := w.onFast p fun f => { f with cool := lowered f.cool }
    if lowered f.cool = 0 then
      if f.cls = some .coolFirst then (if f.cool ≠ 0 ∧ w.coolFirstExits p then w.coolFirstExit p else w)
      else w.coolExit p
    else w
  else w

/-- The record clocks of `p` take one step. -/
def Work.stepRecord (w : Work) (p : Pocket) : Work :=
  match w.ctx p with
  | none => w
  | some c =>
    if c.fast.hold ≠ .none then w
    else
      match c.fast.phase, c.fast.progress with
      | .heat, _ => w.stepHeat p c.fast
      | .cool, _ => if c.awaitCool then w else w.stepCool p c.fast
      | .crease, some cp => w.stepCrease p c cp
      | _, _ => w

/-! ### The checkpoint timer (R60) -/

/-- What a checkpoint timer does at 0 (R60). -/
def Work.timerAtZero (w : Work) (p : Pocket) : Work :=
  match w.ctx p with
  | none => w
  | some c =>
    if c.dirty = 0 then w.onCtx p fun c => { c with timer := w.setting 1 }
    else if c.checkpoint = .idle then w.demandCheckpoint p
    else w

/-- The checkpoint timer of `p` takes one step. -/
def Work.stepTimer (w : Work) (p : Pocket) : Work :=
  match w.ctx p with
  | none => w
  | some c =>
    let w := w.onCtx p fun c => { c with timer := lowered c.timer }
    if c.timer = 1 then w.timerAtZero p else w

/-- CLOCK_STEP (R17, R18, R60, R72, R138): pockets in ascending order (log entry 15), each with its record clock before its
checkpoint timer. DESIGN CHOICE: log entry 52. -/
def execClockStep (s : State) : Host.Outcome State Fault Refusal :=
  powered s fun w =>
    let w : Work := { w with sup := { w.sup with uptime := min Config.uptimeMax (w.sup.uptime + 1) } }
    if w.part = .active then allPockets.foldl (fun w p => (w.stepRecord p).stepTimer p) w else w

/-! ### The exits on their own

A clock step takes the exit it leads to itself; as a command of its own an exit acts on a record whose count stands at 0
(log entries 15 and 16). -/

/-- Whether the record of `p` runs without a hold and satisfies `f`, in ACTIVE. -/
def State.stands (s : State) (p : Pocket) (f : Fast → Bool) : Bool :=
  s.part == .active && s.recordIs p fun x => x.hold == .none && f x

/-- HEAT_EXIT (R7). -/
def execHeatExit (p : Pocket) (s : State) : Host.Outcome State Fault Refusal :=
  powered s fun w => if w.stands p (fun f => f.phase == .heat && f.heat == 0) && w.heatConfirmed p then w.heatExit p else w

/-- COOL_EXIT (R8). -/
def execCoolExit (p : Pocket) (s : State) : Host.Outcome State Fault Refusal :=
  powered s fun w =>
    if w.stands p (fun f => f.phase == .cool && f.cool == 0 && f.cls != some .coolFirst)
      && !((w.ctx p).map (·.awaitCool)).getD true && w.motorConfirmed p then w.coolExit p else w

/-- CREASE_WINDOW_END (R76). -/
def execCreaseWindowEnd (p : Pocket) (s : State) : Host.Outcome State Fault Refusal :=
  powered s fun w =>
    if w.stands p fun f => f.phase == .crease && (f.progress.map fun cp => cp.window == 0).getD false then w.endCrease p else w

/-- TUMBLE_END (R75). -/
def execTumbleEnd (p : Pocket) (s : State) : Host.Outcome State Fault Refusal :=
  powered s fun w =>
    if w.stands p (fun f => f.phase == .crease && (f.progress.map (·.tumbling)).getD false)
      && (w.ctx p).bind (·.tumbleLeft) == some 0 then w.endTumble p else w

/-- TUMBLE_DUE (R73). -/
def execTumbleDue (p : Pocket) (s : State) : Host.Outcome State Fault Refusal :=
  powered s fun w =>
    if w.stands p fun f => f.phase == .crease && (f.progress.map fun cp => cp.nextDue == 0 && !cp.tumbling).getD false
    then w.tumbleDue p else w

/-- CHECKPOINT_TIMER_EXPIRY (R60). -/
def execCheckpointTimerExpiry (p : Pocket) (s : State) : Host.Outcome State Fault Refusal :=
  powered s fun w => if w.part = .active ∧ (w.ctx p).map (·.timer) = some 0 then w.timerAtZero p else w

end Sys2Proof.Machine
end

