-- ==== Sys2Proof/Machine/LinkEvents.lean ====
section
/-! DEFINITION. The meanings of the pocket link's events (chapter 5). -/

namespace Sys2Proof.Machine

/-! ### Sending (R95, R100) -/

/-- Whether an entry may be sent: UNSENT, or WAIT_RETRY with its retry time reached; a HEAT_ON waits for the static read
that gives its level (R22). -/
def Entry.ready (e : Entry) : Bool := (e.state == .unsent || e.state == .waitRetry 0) && !(e.kind == .heatOn && e.level.isNone)

/-- The oldest entry that may be sent and has no older entry of its pocket before it (R95). -/
def nextToSend (older : List Entry) (q : List Entry) : Option Entry :=
  match q with
  | [] => none
  | e :: r => if e.ready && !(older.any fun x => x.pocket == e.pocket) then some e else nextToSend (older ++ [e]) r

/-- The retry test (R100). -/
def State.retryTest (s : State) (e : Entry) : Bool :=
  match e.pocket, e.kind with
  | some p, .run => (s.pocketLink p).runAuthority && s.motorDesired p
  | some p, .heatOn =>
    s.recordIs p (fun f => f.phase == .heat && f.hold == .none) && s.hasReservation p && (s.ctx p).bind (·.heatLevel) == e.level
  | _, _ => true

/-- LINK_FRAME_SEND (R95, R100). -/
def execLinkFrameSend (s : State) : Host.Outcome State Fault Refusal :=
  powered s fun w =>
    if w.inFlight.isSome then w
    else
      match nextToSend [] w.link.queue with
      | none => w
      | some e =>
        if e.state = .unsent || w.retryTest e then
          let w := w.sendEntry (· == e) { e with state := .inFlight }
          if e.pocket.isNone then w.believeAllSafe else w
        else w.removeEntries (· == e)

/-! ### The end of an exchange -/

/-- A command that may end an exchange: a broadcast that waits for the link is then sent (R111). -/
def onExchange (s : State) (body : Work → Work) : Host.Outcome State Fault Refusal := powered s fun w => (body w).sendBroadcast

/-- The exchange in flight ends and its entry leaves the queue. -/
def Work.endExchange (w : Work) : Work :=
  let w := w.removeEntries (·.state == .inFlight)
  { w with link := { w.link with windowMs := 0 } }

/-- The frame in flight is sent again (R89). -/
def Work.resend (w : Work) : Work :=
  { w with link := { w.link with
      queue := w.link.queue.map fun e => if e.state = .inFlight then { e with silent := e.silent + 1 } else e
      windowMs := Config.replyWindowMs } }

/-- A unicast frame has stayed silent (R89). -/
def Work.silence (w : Work) (p : Pocket) (e : Entry) : Work :=
  let last := Config.sendsBeforeOffline ≤ e.silent + 1
  match (w.pocketLink p).state with
  | .online => if last then (w.endExchange).goOffline p else w.resend
  | .unknown => if last then (w.endExchange).goOffline p else w.resend
  | .offline => w.endExchange.onLink p fun l => { l with offlineMs := some Config.offlineProbeMs }
  | .fault => if e.kind = .poll ∨ last then w.endExchange else w.resend
  | .absent => w.endExchange

/-- REPLY_WINDOW_EXPIRY (R84, R89, R111). -/
def execReplyWindowExpiry (s : State) : Host.Outcome State Fault Refusal :=
  onExchange s fun w =>
    match w.inFlight with
    | none => w
    | some e =>
      match e.pocket with
      | none => w.endExchange
      | some p => if w.linkActs then w.silence p e else w.endExchange

/-- The exchange in flight with pocket `p`, if its command is one that `f` accepts. -/
def State.exchange (s : State) (p : Pocket) (f : CommandKind → Bool) : Option Entry :=
  match s.inFlight with
  | some e => if e.pocket = some p ∧ f e.kind then some e else none
  | none => none

/-! ### STATUS (R106 to R109) -/

/-- The believed state of a STATUS report (R86). -/
def Work.believeReport (w : Work) (p : Pocket) (r : StatusReport) : Work :=
  let l := w.pocketLink p
  let level := if r.heatOn then some ((l.heatBelieved <|> l.lastLevel).getD 1) else none
  (w.believeMotor p r.motorRunning).believeHeat p level

/-- A lost start (R106, R130): a motor believed RUNNING is reported stopped. -/
def Work.lostStart (w : Work) (p : Pocket) (r : StatusReport) : Work :=
  let w := w.leaveWaitList p
  if !r.motorFault && !r.doorOpen && w.motorDesired p then w.makeRequest p (w.requestLevel p 7) else w

/-- An exhaust reading after the clamp of 201..254; absent for a sensor that is absent (R106). -/
def exhaustReading (r : StatusReport) : Option Nat := if 255 ≤ r.exhaust then none else some (min 200 r.exhaust)

/-- The last exhaust reading of the pocket (R106). -/
def Work.noteExhaust (w : Work) (p : Pocket) (r : StatusReport) : Work :=
  w.onLink p fun l => { l with exhaust := exhaustReading r <|> l.exhaust }

/-- The load temperature of a record in HEAT or COOL whose motor is reported running (R106). -/
def Work.noteTemperature (w : Work) (p : Pocket) (r : StatusReport) : Work :=
  match exhaustReading r with
  | some x => w.onFast p fun f => if (f.phase = .heat ∨ f.phase = .cool) ∧ r.motorRunning then { f with temp := x } else f
  | none => w

/-- The door and its latch (R107). -/
def Work.judgeDoor (w : Work) (p : Pocket) (r : StatusReport) : Work :=
  if r.latch && !(w.pocketLink p).latchSeen then
    let w := w.doorOpened p
    let w := if r.doorOpen then w else w.doorClosed p
    if (w.pocketLink p).state = .online ∨ (w.pocketLink p).state = .fault then w.postClearDoor p else w
  else if r.doorOpen then w.doorOpened p
  else w.doorClosed p

/-- The fault flags (R108). -/
def Work.judgeFaults (w : Work) (p : Pocket) (r : StatusReport) : Work :=
  let w := if r.heatFault then (((w.recordFault p .heatFault).takeHold p .heatFault).releaseHeat p).converge p else w
  if r.motorFault then w.goFault p .motorFault else w

/-- Whether a report finds the motor of a heating record stopped and its heat off, both believed on before it (R106). -/
def State.losesHeat (s : State) (p : Pocket) (r : StatusReport) : Bool :=
  s.recordIs p (fun f => f.phase == .heat && f.hold == .none) && (s.pocketLink p).motorBelieved && !r.motorRunning
    && (s.pocketLink p).heatBelieved.isSome && !r.heatOn

/-- A STATUS in ACTIVE (R106 to R108, R173): the believed state, convergence afresh, and then what the report says of the
start, the temperatures, the door and the faults. -/
def Work.statusInActive (w : Work) (p : Pocket) (r : StatusReport) : Work :=
  let lost := (w.pocketLink p).motorBelieved && !r.motorRunning
  let heatLost := w.losesHeat p r
  let w := (w.believeReport p r).onLink p fun l => { l with heatLost := l.heatLost || heatLost }
  let w := ((w.admitHeldBefore p).comeOnline p).converge p
  let w := if lost then w.lostStart p r else w
  let w := (((w.noteExhaust p r).noteTemperature p r).judgeDoor p r).judgeFaults p r
  let w := if w.coolFirstExits p then w.coolFirstExit p else w
  w.rederive p

/-- A STATUS in PLAN (R109, R110, R156): the link alone, and the first status of the pocket whose window is open. -/
def Work.statusInPlan (w : Work) (p : Pocket) (r : StatusReport) : Work :=
  let w := ((w.believeReport p r).comeOnline p).noteExhaust p r
  let w := if r.motorFault then w.goFault p .motorFault else w
  if (w.plan.window.map (·.pocket)) = some p then
    Work.endWindow { w with plan := { w.plan with first := upd w.plan.first p (some r) } }
  else w

/-- A STATUS reply to a POLL is taken (R88, R106 to R109, R111). DEDUCED: log entry 26. -/
def Work.takeStatus (w : Work) (p : Pocket) (r : StatusReport) : Work :=
  match w.part with
  | .active => w.endExchange.statusInActive p r
  | .plan => w.endExchange.statusInPlan p r
  | _ => w.endExchange.believeReport p r

/-! ### Replies to confirmed commands (R97 to R103) -/

/-- A tumble begins (R74): tumbling, counted, its time left at the plan's length; a CREASE_ON resumption ends. -/
def Context.beginTumble (c : Context) : Context :=
  { c.change (fun f =>
      { (if f.status = .none then f else f.endResume) with
        progress := f.progress.map fun cp => { cp with tumbling := true, remaining := cp.remaining - 1 } }) with
    tumbleLeft := some c.length, tumbleGranted := false }

/-- Whether an ACK to RUN begins a tumble of the record (R74). -/
def Context.beginsTumble (c : Context) : Bool :=
  c.fast.phase == .crease && c.fast.hold == .none && (c.fast.progress.map fun cp => !cp.tumbling).getD false

/-- What an ACK to RUN does to the record as it stands (R74, R102): a tumble begins where R74 allows; otherwise a grant that
was to begin one is spent, a PENDING record becomes RUNNING, and one in HEAT without a hold makes its heat request. A
PENDING record whose draw exceeds its budget is RUNNING when the request is refused. DESIGN CHOICE: log entry 56.
DEDUCED: log entry 13. -/
def Work.runOnRecord (w : Work) (p : Pocket) : Work :=
  match w.ctx p with
  | none => w
  | some c =>
    if c.beginsTumble then
      let w := if c.fast.status = .none then w else w.mark .resume p
      w.onCtx p Context.beginTumble
    else
      let w := w.onCtx p fun c => { c with tumbleGranted := false }
      let w := if c.fast.status = .pending then (w.onFast p fun f => { f with status := .running }).mark .resume p else w
      if c.fast.phase = .heat ∧ c.fast.hold = .none then w.heatRequest p else w

/-- The start window of a slot begins at the ACK (R122). -/
def Work.startWindow (w : Work) (p : Pocket) : Work :=
  w.onSlot p fun x => if x.stage = .awaitAck then { x with stage := .starting, timerMs := w.setting 9 * 100 } else x

/-- An ACK to a RUN is taken (R86, R97, R102, R122). -/
def Work.takeRunAck (w : Work) (p : Pocket) : Work :=
  let w := w.endExchange.believeMotor p true
  if w.linkActs then
    let w := w.onLink p fun l => { l with startAttempts := 0, runAuthority := false }
    let w := (w.admitHeldBefore p).comeOnline p
    if w.part = .active then (((w.startWindow p).removeRequest p).runOnRecord p).rederive p else w
  else w

/-- RUN_ACK (R102). -/
def execRunAck (p : Pocket) (s : State) : Host.Outcome State Fault Refusal :=
  onExchange s fun w =>
    match w.exchange p (· == .run) with
    | none => w
    | some _ => w.takeRunAck p

/-- A REHEAT resumption that is RUNNING ends at a HEAT_ON acknowledgement (R102). -/
def Work.heatOnRecord (w : Work) (p : Pocket) : Work :=
  if w.recordIs p fun f => f.status == .running && f.cls == some .reheat then (w.onFast p Fast.endResume).mark .resume p else w

/-- An ACK to the HEAT_ON of entry `e` is taken (R86, R102). -/
def Work.takeHeatOnAck (w : Work) (p : Pocket) (e : Entry) : Work :=
  let w := w.endExchange.believeHeat p (some (e.level.getD 1))
  if w.linkActs then
    let w := (w.admitHeldBefore p).comeOnline p
    if w.part = .active then (w.heatOnRecord p).rederive p else w
  else w

/-- HEAT_ON_ACK (R102). -/
def execHeatOnAck (p : Pocket) (s : State) : Host.Outcome State Fault Refusal :=
  onExchange s fun w =>
    match w.exchange p (· == .heatOn) with
    | none => w
    | some e => w.takeHeatOnAck p e

/-- The entry in flight goes to WAIT_RETRY (R99). -/
def Work.waitRetry (w : Work) (attempts : Nat) : Work :=
  { w with link := { w.link with
      queue := w.link.queue.map fun e =>
        if e.state = .inFlight then { e with attempts := attempts, silent := 0, state := .waitRetry Config.retryWaitMs } else e
      windowMs := 0 } }

/-- A refused RUN (R99, R100). -/
def Work.runRefused (w : Work) (p : Pocket) (e : Entry) : Work :=
  let w := w.onLink p fun l => { l with startAttempts := l.startAttempts + 1 }
  if w.setting 3 ≤ (w.pocketLink p).startAttempts then w.endExchange.goFault p .retryExhausted else w.waitRetry e.attempts

/-- A refused HEAT_ON (R99, R101). -/
def Work.heatOnRefused (w : Work) (p : Pocket) (e : Entry) : Work :=
  if w.setting 3 ≤ e.attempts + 1 then
    let w := w.endExchange.admitHeldBefore p
    if w.part = .active then ((w.recordFault p .heatFault).takeHold p .heatFault).rederive p else w
  else w.waitRetry (e.attempts + 1)

/-- A NOT_READY of LOCKOUT or BUSY to the RUN or HEAT_ON of entry `e` is taken (R99 to R101). -/
def Work.takeRetry (w : Work) (p : Pocket) (e : Entry) : Work :=
  if w.linkActs then
    let w := w.comeOnline p
    if e.kind = .run then w.runRefused p e else w.heatOnRefused p e
  else w.endExchange

/-- NOT_READY_RETRY (R99). -/
def execNotReadyRetry (p : Pocket) (_why : RetryReason) (s : State) : Host.Outcome State Fault Refusal :=
  onExchange s fun w =>
    match w.exchange p fun k => k == .run || k == .heatOn with
    | none => w
    | some e => w.takeRetry p e

/-- The door refuses a RUN: the authority ends and the slot is marked (R103, R124). -/
def Work.doorRefusesRun (w : Work) (p : Pocket) : Work :=
  (w.endAuthority p).onSlot p fun x => if x.stage = .awaitAck then { x with doorRefused := true, carried := none } else x

/-- A NOT_READY of DOOR_OPEN to the RUN or HEAT_ON of entry `e` is taken (R103). -/
def Work.takeDoorOpen (w : Work) (p : Pocket) (e : Entry) : Work :=
  let w := w.endExchange
  if w.linkActs then
    let w := (w.admitHeldBefore p).comeOnline p
    let w := if e.kind = .run then w.doorRefusesRun p else w
    if w.part = .active then (w.takeHold p .door).rederive p else w
  else w

/-- NOT_READY_DOOR_OPEN (R103). -/
def execNotReadyDoorOpen (p : Pocket) (s : State) : Host.Outcome State Fault Refusal :=
  onExchange s fun w =>
    match w.exchange p fun k => k == .run || k == .heatOn with
    | none => w
    | some e => w.takeDoorOpen p e

/-! ### Replies to posted commands, and what no entry takes -/

/-- The believed state after a good reply to a posted command (R86). -/
def Work.believePosted (w : Work) (p : Pocket) (k : CommandKind) : Work :=
  match k with
  | .stop => w.believeMotor p false
  | .heatOff => w.believeHeat p none
  | .safe => (w.believeMotor p false).believeHeat p none
  | _ => w

/-- A good reply to the posted command of entry `e` is taken: an ACK or a NOT_READY of any reason alike (R85, R86, R95). -/
def Work.takePosted (w : Work) (p : Pocket) (e : Entry) : Work :=
  let w := w.endExchange.believePosted p e.kind
  if w.linkActs then
    let w := (w.admitHeldBefore p).comeOnline p
    if w.part = .active then w.rederive p else w
  else w

/-- POSTED_REPLY (R85). -/
def execPostedReply (p : Pocket) (_answer : PostedAnswer) (s : State) : Host.Outcome State Fault Refusal :=
  onExchange s fun w =>
    match w.exchange p fun k => k == .stop || k == .heatOff || k == .safe || k == .clearDoor with
    | none => w
    | some e => w.takePosted p e

/-- A good reply to the command of entry `e` acts as its kind requires (R84, R85, R95). -/
def Work.takeReply (w : Work) (p : Pocket) (e : Entry) (r : Reply) : Work :=
  match e.kind, r with
  | .poll, .status x => w.takeStatus p x
  | .poll, _ => w
  | .run, .ack => w.takeRunAck p
  | .heatOn, .ack => w.takeHeatOnAck p e
  | .run, .notReady .doorOpen => w.takeDoorOpen p e
  | .heatOn, .notReady .doorOpen => w.takeDoorOpen p e
  | .run, _ => w.takeRetry p e
  | .heatOn, _ => w.takeRetry p e
  | _, _ => w.takePosted p e

/-- A reply's bytes, received while the exchange with `p` is under way: a good reply is taken as its kind requires, and any
other is discarded (R84, R197, R198). -/
def Work.takeBytes (w : Work) (p : Pocket) (bytes : List Byte) : Work :=
  match w.exchange p fun _ => true with
  | none => w
  | some e =>
    match readReply p e.kind bytes with
    | some r => w.takeReply p e r
    | none => w

/-- STATUS_ARRIVAL (R106); a reply given as bytes is tested first. DESIGN CHOICE: log entry 5. -/
def execStatusArrival (p : Pocket) (x : StatusReply) (s : State) : Host.Outcome State Fault Refusal :=
  onExchange s fun w =>
    match x with
    | .bytes bs => w.takeBytes p bs
    | .report r =>
      match w.exchange p (· == .poll) with
      | none => w
      | some _ => w.takeStatus p r

/-- REPLY_DISCARDED (R84): a reply that is not a good one, or anything received outside a reply window, is discarded, and
nothing changes. -/
def execReplyDiscarded (s : State) : Host.Outcome State Fault Refusal := powered s fun w => w

/-- RETRY_TIME_REACHED (R100): the waiting entry of the pocket becomes eligible. -/
def execRetryTimeReached (p : Pocket) (s : State) : Host.Outcome State Fault Refusal :=
  powered s fun w =>
    w.setQueue (w.link.queue.map fun e =>
      match e.state with
      | .waitRetry _ => if e.isFor p then { e with state := .waitRetry 0 } else e
      | _ => e)

/-! ### Polling (R104, R105) -/

/-- Whether pocket `p` is polled in the rounds (section 5.2). -/
def State.polled (s : State) (p : Pocket) : Bool :=
  let st := (s.pocketLink p).state
  st == .online || st == .unknown || st == .fault

/-- POLL_TURN (R104). -/
def execPollTurn (p : Pocket) (s : State) : Host.Outcome State Fault Refusal :=
  powered s fun w =>
    if w.part = .active ∧ p.val < w.count ∧ w.polled p ∧ w.link.queue.length < Config.pollThreshold then w.postPoll p else w

/-- OFFLINE_POLL_TIMER_EXPIRY (R105). -/
def execOfflinePollTimerExpiry (p : Pocket) (s : State) : Host.Outcome State Fault Refusal :=
  powered s fun w =>
    if w.part = .active ∧ (w.pocketLink p).state = .offline then
      (w.onLink p fun l => { l with offlineMs := some 0 }).postProbe p
    else w

end Sys2Proof.Machine
end

