-- ==== Sys2Proof/Machine/ArbiterEvents.lean ====
section
/-! DEFINITION. The meanings of the start arbiter's and the sag throttle's events (sections 6.3 and 6.5). -/

namespace Sys2Proof.Machine

/-! ### Slots (R122, R123) -/

/-- The slot of `p` in a stage, in ACTIVE (R125). -/
def State.slotIn (s : State) (p : Pocket) (st : SlotStage) : Option Slot :=
  if s.part = .active then (s.slotOf p).filter fun x => x.stage == st else none

/-- START_WINDOW_END (R122). -/
def execStartWindowEnd (p : Pocket) (s : State) : Host.Outcome State Fault Refusal :=
  powered s fun w =>
    match w.slotIn p .starting with
    | none => w
    | some x =>
      let w := w.releaseSlot p
      match x.carried with
      | some level => if w.motorDesired p && !(w.pocketLink p).motorBelieved then w.makeRequest p level else w
      | none => w

/-- GRANT_TIMEOUT (R97, R123). -/
def execGrantTimeout (p : Pocket) (s : State) : Host.Outcome State Fault Refusal :=
  powered s fun w =>
    match w.slotIn p .awaitAck with
    | none => w
    | some x =>
      let w := (w.releaseSlot p).endAuthority p
      if !x.doorRefused && w.motorDesired p && (w.pocketLink p).state == .online then
        w.makeRequest p (max x.level (x.carried.getD 0))
      else w

/-- START_GAP_END (R119). -/
def execStartGapEnd (s : State) : Host.Outcome State Fault Refusal :=
  powered s fun w =>
    if w.part = .active then
      { w with arb := { w.arb with sinceGrant := w.arb.sinceGrant.map fun ms => max ms (w.setting 8 * 100) }, grant := true }
    else w

/-! ### The sag throttle (R133 to R135) -/

/-- Whether the throttle runs (R135). -/
def State.throttleRuns (s : State) : Bool := s.part == .plan || s.part == .active

/-- SAG_PULSE (R133). -/
def execSagPulse (s : State) : Host.Outcome State Fault Refusal :=
  powered s fun w =>
    if !w.throttleRuns || w.sag.active then w
    else
      let count := w.sag.count + 1
      if w.setting 12 ≤ count then
        Work.markPart { w with sag := { w.sag with count := count, windowRuns := false, active := true,
                                                   throttleMs := w.setting 13 * 1000 } } .throttle
      else { w with sag := { w.sag with count := count } }

/-- SAG_WINDOW_EXPIRY (R133). -/
def execSagWindowExpiry (s : State) : Host.Outcome State Fault Refusal :=
  powered s fun w =>
    if w.throttleRuns && w.sag.windowRuns then { w with sag := { w.sag with count := 0, windowMs := w.setting 11 * 1000 } }
    else w

/-- THROTTLE_TIMER_EXPIRY (R134). -/
def execThrottleTimerExpiry (s : State) : Host.Outcome State Fault Refusal :=
  powered s fun w =>
    if w.throttleRuns && w.sag.active then
      Work.markPart { w with
        sag := { count := 0, windowMs := w.setting 11 * 1000, windowRuns := true, active := false, throttleMs := 0 }
        grant := true, serve := true } .throttle
    else w

end Sys2Proof.Machine
end

