-- ==== Sys2Proof/Machine/SupplyEvents.lean ====
section
/-! DEFINITION. The meanings of the supply supervisor's events: the warning and the save, settling, the backup domain and
the resets (chapter 7). -/

namespace Sys2Proof.Machine

/-! ### Settling (R137) -/

/-- Both supply lines are good. -/
def Supply.linesGood (x : Supply) : Bool := x.mainsOk && !x.pfw

/-- A break (R137). -/
def Work.breakSettling (w : Work) : Work := { w with sup := { w.sup with settleMs := 0, settled := false } }

/-- Mains becomes settled (R137, R139, R149), and the outage timer stops: its value stands, and when it resumes its first
count falls a whole second later (R152). -/
def Work.settled (w : Work) : Work :=
  let w : Work := { w with sup := { w.sup with settleMs := w.setting 5 * 1000, settled := true }
                           backup := { w.backup with secondMs := 0 } }
  match w.part with
  | .start => if w.ctl.scanDone then w.enterPlan false else w
  | .dark => w.enterPlan true
  | _ => w

/-! ### The warning (R141, R142) -/

/-- A waiting operation that the warning keeps (R142). -/
def StoreOp.keptAtWarning (op : StoreOp) : Bool :=
  match op with
  | .retire _ _ _ _ | .staticRead _ _ => true
  | _ => false

/-- A waiting operation whose host request is answered POWER_FAIL when it is dropped (R142, R183). -/
def StoreOp.hostWaits (op : StoreOp) : Bool :=
  match op with
  | .openRecord _ _ _ _ _ | .translation _ | .lookupRead _ _ | .staticWrite _ _ _ | .mapRepair _ _ | .remap _ => true
  | _ => false

/-- The operation queue is sorted by kind (R142). -/
def Work.sortQueue (w : Work) : Work :=
  let answers := w.ctl.queue.any StoreOp.hostWaits
  let w : Work := { w with
    ctl := { w.ctl with queue := w.ctl.queue.filter StoreOp.keptAtWarning }
    ctxs := w.ctxs.map fun c => c.map fun c =>
      { c with checkpoint := if c.checkpoint = .writing then .writing else .idle, tumbleLeft := none, tumbleGranted := false } }
  if answers then w.respond .powerFail [] else w

/-- The link at a warning: what is not in flight leaves, every RUN authority ends, and SAFE is broadcast (R111). -/
def Work.linkAtWarning (w : Work) : Work :=
  let w := w.removeEntries fun e => e.state != .inFlight
  Work.broadcastSafe { w with link := { w.link with pockets := w.link.pockets.map fun l =>
    { l with runAuthority := false, heatLost := false } } }

/-- A power-fail warning begins a save (R141 to R144, R176). -/
def Work.beginSave (w : Work) : Work :=
  let w := (w.enter .save).linkAtWarning
  let w : Work := { w with
    arb := { w.arb with requests := Vector.replicate 32 none, slots := [], sinceGrant := none }
    heat := HeatUnit.reset
    plan := Planner.reset
    sup := { w.sup with save := { charged := 0, written := 0, opAtWarning := w.ctl.current.isSome, uptime := w.sup.uptime } } }
  let w := w.sortQueue
  if w.ctl.current.isSome then w
  else
    let w := w.decideMark
    if w.ctl.queue.isEmpty then Work.saveNext 40 w else w

/-- PFW goes from false to true: a break, and in ACTIVE and PLAN a save (R136, R137); with PFW true already there is no
change and no effect (log entry 29). -/
def Work.warn (w : Work) : Work :=
  if w.sup.pfw then w
  else
    let w := Work.breakSettling { w with sup := { w.sup with pfw := true } }
    if w.part = .active ∨ w.part = .plan then w.beginSave else w

/-- POWER_FAIL_WARNING (R136, R141). -/
def execPowerFailWarning (s : State) : Host.Outcome State Fault Refusal := powered s fun w => w.warn

/-- A supply line changes while the core has no supply. -/
def State.setLine (s : State) (line : SupplyLine) (good : Bool) : State :=
  match line with
  | .mainsOk => { s with sup := { s.sup with mainsOk := good } }
  | .pfw => { s with sup := { s.sup with pfw := !good } }

/-- SUPPLY_BREAK (R137): PFW going true is a warning as well (R136). -/
def execSupplyBreak (line : SupplyLine) (s : State) : Host.Outcome State Fault Refusal :=
  if s.powered then
    powered s fun w =>
      match line with
      | .mainsOk => if w.sup.mainsOk then Work.breakSettling { w with sup := { w.sup with mainsOk := false } } else w
      | .pfw => w.warn
  else .next (s.setLine line false)

/-- MAINS_OK_RETURN (R137): the settle timer, at 0 since the break, counts once both lines are good. VBK that comes back to its
retention level is good from then on, and what its loss took from the backup domain stays lost (R151). DESIGN CHOICE: log
entry 28. -/
def execMainsOkReturn (input : SupplyReturn) (s : State) : Host.Outcome State Fault Refusal :=
  match input with
  | .line l => .next (s.setLine l true)
  | .vbk => .next { s with sup := { s.sup with vbkGood := true } }

/-- SETTLE_TIME_REACHED (R137, R152): only lines that are good and not yet settled can settle. -/
def execSettleTimeReached (s : State) : Host.Outcome State Fault Refusal :=
  powered s fun w => if w.sup.linesGood && !w.sup.settled then w.settled else w

/-! ### The backup domain (R151, R152) -/

/-- Whether the outage timer counts: running, and mains not settled, as it is not while the core has no supply; a domain
that has lost its own supply counts nothing. -/
def State.outageCounts (s : State) : Bool := s.backup.running && (!s.sup.settled || !s.powered) && !s.backup.lost

/-- OUTAGE_TIMER_COUNT (R152). -/
def execOutageTimerCount (s : State) : Host.Outcome State Fault Refusal :=
  .next (if s.outageCounts then { s with backup := { s.backup with timer := min Config.outageMax (s.backup.timer + 1) } } else s)

/-- VBK_RETENTION_LOSS (R151): the domain is lost when the core does not feed it. DESIGN CHOICE: log entry 28. -/
def execVbkRetentionLoss (s : State) : Host.Outcome State Fault Refusal :=
  .next { s with sup := { s.sup with vbkGood := false }
                 backup := { s.backup with valid := false, lost := s.backup.lost || !s.powered } }

/-! ### Resets and the core supply (R140, R154) -/

/-- The part with every volatile item at its reset value, the store, the backup domain, the supply lines and the waiting
commands as they stand (R154). -/
def State.resetVolatile (s : State) : State :=
  { State.reset with
    store := s.store, backup := s.backup, pending := s.pending
    sup := { State.reset.sup with mainsOk := s.sup.mainsOk, pfw := s.sup.pfw, vbkGood := s.sup.vbkGood } }

/-- The backup domain at power-up: kept while VBK held, otherwise at 0 and clear (R151, R154). -/
def Backup.atPowerUp (b : Backup) (vbkGood : Bool) : Backup :=
  if b.lost || !vbkGood then { timer := 0, running := false, valid := false, secondMs := 0, lost := false } else b

/-- The part whose core supply has collapsed (R140, R148): volatile state is lost, store words written stand, and the backup
domain lives on VBK alone. DESIGN CHOICE: log entry 39. -/
def State.collapsed (s : State) : State :=
  { s.resetVolatile with powered := false, backup := { s.backup with lost := s.backup.lost || !s.sup.vbkGood } }

/-- The part whose core supply has returned with the supply lines at `levels` (R154). -/
def State.poweredUp (s : State) (levels : SupplyLevels) : State :=
  let r := s.resetVolatile
  { r with
    backup := s.backup.atPowerUp levels.vbkGood
    sup := { r.sup with mainsOk := levels.mainsOk, pfw := levels.pfw, vbkGood := levels.vbkGood } }

/-- POWER_ON (R154). On a part that has its core supply it is a collapse and then a power-on, so that a backup domain whose
VBK is below retention is lost. DESIGN CHOICE: log entry 43. -/
def execPowerOn (levels : SupplyLevels) (s : State) : Host.Outcome State Fault Refusal :=
  .next ((if s.powered then s.collapsed else s).poweredUp levels)

/-- RESET_PIN (R154). -/
def execResetPin (s : State) : Host.Outcome State Fault Refusal := .next (if s.powered then s.resetVolatile else s)

/-- CORE_SUPPLY_COLLAPSE (R140, R148). -/
def execCoreSupplyCollapse (s : State) : Host.Outcome State Fault Refusal := .next (if s.powered then s.collapsed else s)

end Sys2Proof.Machine
end

