-- ==== Sys2Proof/Machine/PlanEvents.lean ====
section
/-! DEFINITION. The meanings of the resume planner's own events (R156). -/

namespace Sys2Proof.Machine

/-- The first-poll window of `p`, while PLAN has it open. -/
def State.openWindowOf (s : State) (p : Pocket) : Option PollWindow :=
  if s.part = .plan then s.plan.window.filter fun x => x.pocket == p else none

/-- FIRST_POLL_WINDOW_END (R156): the window ends by time and the pocket is silent at PLAN. -/
def execFirstPollWindowEnd (p : Pocket) (s : State) : Host.Outcome State Fault Refusal :=
  powered s fun w => if (w.openWindowOf p).isSome then w.endWindow else w

/-- FIRST_POLL_REPOLL (R156): a further POLL while the window is open and the pocket has no entry in the queue. -/
def execFirstPollRepoll (p : Pocket) (s : State) : Host.Outcome State Fault Refusal :=
  powered s fun w =>
    match w.openWindowOf p with
    | none => w
    | some x =>
      if w.link.queue.any (Entry.isFor · p) then w
      else Work.postPoll { w with plan := { w.plan with window := some { x with repollMs := none } } } p

end Sys2Proof.Machine
end

