-- ==== Sys2Proof/Machine/Tick.lean ====
section
/-! DEFINITION. One millisecond of the part's own time, which passes when no command waits (log entries 6 and 7): timers
count, the store makes one access, and the commands that fall due join the queue. -/

namespace Sys2Proof.Machine

/-- What one millisecond does to one timer, and the commands it makes due. -/
abbrev Ticker := State → State × List Instr

/-- No words failed. -/
def Findings.clean : Findings := ⟨[], []⟩

/-- A count of milliseconds lowered, and whether it has just run out. -/
def elapse (ms : Nat) : Nat × Bool := (ms - 1, ms == 1)

/-- The oscillator of the backup domain (R152): its first count falls one second after it starts or resumes. -/
def tickBackup : Ticker := fun s =>
  if !s.outageCounts then ({ s with backup := { s.backup with secondMs := 0 } }, [])
  else if 999 ≤ s.backup.secondMs then ({ s with backup := { s.backup with secondMs := 0 } }, [.outageTimerCount])
  else ({ s with backup := { s.backup with secondMs := s.backup.secondMs + 1 } }, [])

/-- The settle timer (R137). -/
def tickSettle : Ticker := fun s =>
  if s.sup.linesGood && !s.sup.settled then
    ({ s with sup := { s.sup with settleMs := s.sup.settleMs + 1 } },
     if s.setting 5 * 1000 ≤ s.sup.settleMs + 1 then [.settleTimeReached] else [])
  else (s, [])

/-- The 1 s timebase (R17, R138). -/
def tickClock : Ticker := fun s =>
  if 999 ≤ s.sup.secondMs then ({ s with sup := { s.sup with secondMs := 0 } }, [.clockStep])
  else ({ s with sup := { s.sup with secondMs := s.sup.secondMs + 1 } }, [])

/-- The command with which the operation in progress ends. -/
def endCommand (r : Running) : Instr :=
  if r.move.isSome then .moveEnd Findings.clean
  else
    match r.op with
    | .translation _ => .translationReadEnd Findings.clean
    | .staticRead _ _ => .staticReadEnd Findings.clean
    | .lookupRead _ _ => .staticReadEnd Findings.clean
    | .staticWrite _ _ _ => .staticWriteEnd Findings.clean
    | .checkpoint _ => .checkpointEnd Findings.clean
    | .saveWrite _ => .saveWriteEnd Findings.clean
    | .openRecord _ _ _ _ _ => .openOperationEnd Findings.clean
    | .retire _ _ _ _ => .retireOperationEnd Findings.clean
    | .move _ _ _ => .moveEnd Findings.clean
    | .mapRepair _ _ => .mapRepairEnd Findings.clean
    | .remap _ => .remapWriteEnd Findings.clean
    | .markWrite _ => .markWriteEnd
    | .settingsWrite _ => .settingsWriteEnd
    | .format _ _ => .formatEnd Findings.clean
    | .plannerRead _ _ => .plannerFrameReadEnd Findings.clean

/-- The START scan, and the store's next access, its end or the next service (R40, R51). The last access of an operation is
made by the command that ends it, so that what the end brings about comes with it: the outage timer with the mark's word
(R153), the items, the timer and the answer with the format word (R193). -/
def tickStore : Ticker := fun s =>
  if s.part = .start ∧ s.ctl.scanning then (s, [.startScanEnd Findings.clean])
  else
    match s.ctl.current with
    | some r =>
      if r.todo = [.retireMap, .retireHeader] then (s, [.retireMapWriteEnd Findings.clean])
      else if r.todo.length ≤ 1 then (s, [endCommand r])
      else ((Work.begin s).access.finish, [])
    | none => (s, if s.ctl.queue.isEmpty then [] else [.storeOperationServe])

/-- The patrol (R47). Outside ACTIVE and DARK its interval stands still, and a read that is owed stays owed.
DESIGN CHOICE: log entry 70. -/
def tickPatrol : Ticker := fun s =>
  if s.part = .active ∨ s.part = .dark then
    let due := 24 ≤ s.ctl.patrolMs
    let owed := s.ctl.patrolOwed && s.ctl.current.isNone && s.ctl.queue.isEmpty
    ({ s with ctl := { s.ctl with patrolMs := if due then 0 else s.ctl.patrolMs + 1 } },
     if due || owed then [.patrolRead Findings.clean] else [])
  else (s, [])

/-- The exchange under way, or the next send (R84, R95). -/
def tickExchange : Ticker := fun s =>
  match s.inFlight with
  | some _ =>
    let x := elapse s.link.windowMs
    ({ s with link := { s.link with windowMs := x.1 } }, if x.1 = 0 then [.replyWindowExpiry] else [])
  | none => (s, if (nextToSend [] s.link.queue).isSome then [.linkFrameSend] else [])

/-- The retry times of waiting entries (R99). -/
def tickRetries : Ticker := fun s =>
  let lowerEntry (e : Entry) : Entry :=
    match e.state with
    | .waitRetry ms => if 1 < ms then { e with state := .waitRetry (ms - 1) } else e
    | _ => e
  let due (e : Entry) : Option Instr :=
    match e.state, e.pocket with
    | .waitRetry 1, some p => some (.retryTimeReached p)
    | _, _ => none
  ({ s with link := { s.link with queue := s.link.queue.map lowerEntry } }, s.link.queue.filterMap due)

/-- The poll round (R104): the turns of its pockets at equal spacing. -/
def tickPolls : Ticker := fun s =>
  if s.part = .active then
    let period := s.setting 4
    ({ s with link := { s.link with roundMs := if period ≤ s.link.roundMs + 1 then 0 else s.link.roundMs + 1 } },
     (s.pockets.filter fun p => p.val * period / s.count == s.link.roundMs).map Instr.pollTurn)
  else (s, [])

/-- The offline poll timers (R105). -/
def tickOffline : Ticker := fun s =>
  if s.part = .active then
    ({ s with link := { s.link with pockets := s.link.pockets.map fun l => { l with offlineMs := l.offlineMs.map (· - 1) } } },
     (allPockets.filter fun p => (s.pocketLink p).offlineMs == some 1).map Instr.offlinePollTimerExpiry)
  else (s, [])

/-- The slot timers and the start gap (R119, R122, R123). -/
def tickSlots : Ticker := fun s =>
  if s.part = .active then
    let due (x : Slot) : Option Instr :=
      if x.timerMs ≤ 1 then some (if x.stage = .awaitAck then .grantTimeout x.pocket else .startWindowEnd x.pocket) else none
    ({ s with arb := { s.arb with
        slots := s.arb.slots.map fun x => { x with timerMs := x.timerMs - 1 }
        sinceGrant := s.arb.sinceGrant.map (· + 1) } },
     s.arb.slots.filterMap due ++ (if s.arb.sinceGrant.map (· + 1) = some (s.setting 8 * 100) then [.startGapEnd] else []))
  else (s, [])

/-- The sag window and throttle timers (R133 to R135). -/
def tickSag : Ticker := fun s =>
  if s.throttleRuns then
    let x := elapse s.sag.windowMs
    let y := elapse s.sag.throttleMs
    ({ s with sag := { s.sag with windowMs := if s.sag.windowRuns then x.1 else s.sag.windowMs
                                  throttleMs := if s.sag.active then y.1 else s.sag.throttleMs } },
     (if s.sag.windowRuns && x.2 then [.sagWindowExpiry] else []) ++ (if s.sag.active && y.2 then [.throttleTimerExpiry] else []))
  else (s, [])

/-- The open first-poll window and its re-poll time (R156). -/
def tickWindow : Ticker := fun s =>
  match s.plan.window with
  | none => (s, [])
  | some x =>
    ({ s with plan := { s.plan with window := some { x with leftMs := x.leftMs - 1, repollMs := x.repollMs.map (· - 1) } } },
     (if x.repollMs = some 1 then [.firstPollRepoll x.pocket] else [])
       ++ (if x.leftMs ≤ 1 then [.firstPollWindowEnd x.pocket] else []))

/-- Every timer in turn, the commands that fall due gathered. -/
def runTickers (ts : List Ticker) (s : State) : State × List Instr :=
  ts.foldl (fun x t => ((t x.1).1, x.2 ++ (t x.1).2)) (s, [])

/-- The timers of a part whose core has supply, and of one whose core has none. -/
def State.tickers (s : State) : List Ticker :=
  if s.powered then
    [tickBackup, tickSettle, tickClock, tickStore, tickPatrol, tickExchange, tickRetries, tickPolls, tickOffline, tickSlots,
     tickSag, tickWindow]
  else [tickBackup]

/-- One millisecond (log entry 6). -/
def tick (s : State) : State :=
  let x := runTickers s.tickers s
  { x.1 with pending := x.1.pending ++ x.2 }

end Sys2Proof.Machine
end

