-- ==== Sys2Proof/Machine/Dispatch.lean ====
section
/-! DEFINITION. One arm for each command: a direct call of its meaning. -/

namespace Sys2Proof.Machine

def exec (i : Instr) (s : State) : Host.Outcome State Fault Refusal :=
  match i with
  | .openRecord pocket args => Sys2Proof.Machine.execOpenRecord pocket args s
  | .start pocket => Sys2Proof.Machine.execStart pocket s
  | .extend pocket seconds => Sys2Proof.Machine.execExtend pocket seconds s
  | .endHeat pocket => Sys2Proof.Machine.execEndHeat pocket s
  | .setHeat pocket level => Sys2Proof.Machine.execSetHeat pocket level s
  | .setOptions pocket set clear => Sys2Proof.Machine.execSetOptions pocket set clear s
  | .retire pocket => Sys2Proof.Machine.execRetire pocket s
  | .lookup pocket => Sys2Proof.Machine.execLookup pocket s
  | .hold pocket => Sys2Proof.Machine.execHold pocket s
  | .release pocket => Sys2Proof.Machine.execRelease pocket s
  | .holdMask set clear => Sys2Proof.Machine.execHoldMask set clear s
  | .clearPocket pocket => Sys2Proof.Machine.execClearPocket pocket s
  | .remap pocket => Sys2Proof.Machine.execRemap pocket s
  | .status => Sys2Proof.Machine.execStatus s
  | .events => Sys2Proof.Machine.execEvents s
  | .storeReport => Sys2Proof.Machine.execStoreReport s
  | .clearLatch => Sys2Proof.Machine.execClearLatch s
  | .enterCommission => Sys2Proof.Machine.execEnterCommission s
  | .format geometry count => Sys2Proof.Machine.execFormat geometry count s
  | .setSetting item value => Sys2Proof.Machine.execSetSetting item value s
  | .getSetting item => Sys2Proof.Machine.execGetSetting item s
  | .leaveCommission => Sys2Proof.Machine.execLeaveCommission s
  | .badFrame bytes => Sys2Proof.Machine.execBadFrame bytes s
  | .droppedRequest => Sys2Proof.Machine.execDroppedRequest s
  | .fetch shifted => Sys2Proof.Machine.execFetch shifted s
  | .storeOperationServe => Sys2Proof.Machine.execStoreOperationServe s
  | .translationReadEnd found => Sys2Proof.Machine.execTranslationReadEnd found s
  | .staticReadEnd found => Sys2Proof.Machine.execStaticReadEnd found s
  | .staticWriteEnd found => Sys2Proof.Machine.execStaticWriteEnd found s
  | .checkpointEnd found => Sys2Proof.Machine.execCheckpointEnd found s
  | .moveEnd found => Sys2Proof.Machine.execMoveEnd found s
  | .openOperationEnd found => Sys2Proof.Machine.execOpenOperationEnd found s
  | .retireMapWriteEnd found => Sys2Proof.Machine.execRetireMapWriteEnd found s
  | .retireOperationEnd found => Sys2Proof.Machine.execRetireOperationEnd found s
  | .remapWriteEnd found => Sys2Proof.Machine.execRemapWriteEnd found s
  | .markWriteEnd => Sys2Proof.Machine.execMarkWriteEnd s
  | .settingsWriteEnd => Sys2Proof.Machine.execSettingsWriteEnd s
  | .formatEnd found => Sys2Proof.Machine.execFormatEnd found s
  | .plannerFrameReadEnd found => Sys2Proof.Machine.execPlannerFrameReadEnd found s
  | .startScanEnd found => Sys2Proof.Machine.execStartScanEnd found s
  | .patrolRead found => Sys2Proof.Machine.execPatrolRead found s
  | .clockStep => Sys2Proof.Machine.execClockStep s
  | .heatExit pocket => Sys2Proof.Machine.execHeatExit pocket s
  | .coolExit pocket => Sys2Proof.Machine.execCoolExit pocket s
  | .creaseWindowEnd pocket => Sys2Proof.Machine.execCreaseWindowEnd pocket s
  | .tumbleEnd pocket => Sys2Proof.Machine.execTumbleEnd pocket s
  | .tumbleDue pocket => Sys2Proof.Machine.execTumbleDue pocket s
  | .checkpointTimerExpiry pocket => Sys2Proof.Machine.execCheckpointTimerExpiry pocket s
  | .linkFrameSend => Sys2Proof.Machine.execLinkFrameSend s
  | .replyWindowExpiry => Sys2Proof.Machine.execReplyWindowExpiry s
  | .statusArrival pocket report => Sys2Proof.Machine.execStatusArrival pocket report s
  | .runAck pocket => Sys2Proof.Machine.execRunAck pocket s
  | .heatOnAck pocket => Sys2Proof.Machine.execHeatOnAck pocket s
  | .notReadyRetry pocket why => Sys2Proof.Machine.execNotReadyRetry pocket why s
  | .notReadyDoorOpen pocket => Sys2Proof.Machine.execNotReadyDoorOpen pocket s
  | .postedReply pocket answer => Sys2Proof.Machine.execPostedReply pocket answer s
  | .replyDiscarded => Sys2Proof.Machine.execReplyDiscarded s
  | .retryTimeReached pocket => Sys2Proof.Machine.execRetryTimeReached pocket s
  | .pollTurn pocket => Sys2Proof.Machine.execPollTurn pocket s
  | .offlinePollTimerExpiry pocket => Sys2Proof.Machine.execOfflinePollTimerExpiry pocket s
  | .startWindowEnd pocket => Sys2Proof.Machine.execStartWindowEnd pocket s
  | .grantTimeout pocket => Sys2Proof.Machine.execGrantTimeout pocket s
  | .startGapEnd => Sys2Proof.Machine.execStartGapEnd s
  | .sagPulse => Sys2Proof.Machine.execSagPulse s
  | .sagWindowExpiry => Sys2Proof.Machine.execSagWindowExpiry s
  | .throttleTimerExpiry => Sys2Proof.Machine.execThrottleTimerExpiry s
  | .powerFailWarning => Sys2Proof.Machine.execPowerFailWarning s
  | .saveWriteEnd found => Sys2Proof.Machine.execSaveWriteEnd found s
  | .supplyBreak line => Sys2Proof.Machine.execSupplyBreak line s
  | .settleTimeReached => Sys2Proof.Machine.execSettleTimeReached s
  | .outageTimerCount => Sys2Proof.Machine.execOutageTimerCount s
  | .vbkRetentionLoss => Sys2Proof.Machine.execVbkRetentionLoss s
  | .powerOn levels => Sys2Proof.Machine.execPowerOn levels s
  | .resetPin => Sys2Proof.Machine.execResetPin s
  | .coreSupplyCollapse => Sys2Proof.Machine.execCoreSupplyCollapse s
  | .firstPollWindowEnd pocket => Sys2Proof.Machine.execFirstPollWindowEnd pocket s
  | .firstPollRepoll pocket => Sys2Proof.Machine.execFirstPollRepoll pocket s
  | .mapRepairEnd found => Sys2Proof.Machine.execMapRepairEnd found s
  | .mainsOkReturn input => Sys2Proof.Machine.execMainsOkReturn input s

end Sys2Proof.Machine
end

