-- ==== Sys2Proof/WellFormed.lean ====
section
/-! DEFINITION. Which operands a command can carry: what fits the fields of its frame (section 11.2, R197), and words of
the store that exist (R32). -/

namespace Sys2Proof

/-- A value that fits `k` bytes. -/
def fits (k n : Nat) : Bool := n < 256 ^ k

/-- A crease plan that fits the payload of OPEN. -/
def planFits (c : CreasePlan) : Bool := fits 1 c.tumbles && fits 2 c.interval && fits 1 c.length && fits 2 c.window

/-- The payload of OPEN that fits its fields. -/
def openFits (a : OpenArgs) : Bool :=
  fits 1 a.level && fits 2 a.heat && fits 2 a.cool && (a.plan.map planFits).getD true

/-- A request whose pocket and payload fit the fields of a REQUEST frame. -/
def reqFits (r : HostReq) : Bool :=
  match r with
  | .openRecord p a => fits 1 p && openFits a
  | .start p => fits 1 p
  | .extend p n => fits 1 p && fits 2 n
  | .endHeat p => fits 1 p
  | .setHeat p n => fits 1 p && fits 1 n
  | .setOptions p _ _ => fits 1 p
  | .retire p => fits 1 p
  | .lookup p => fits 1 p
  | .hold p => fits 1 p
  | .release p => fits 1 p
  | .holdMask _ _ => true
  | .clearPocket p => fits 1 p
  | .remap p => fits 1 p
  | .status => true
  | .events => true
  | .storeReport => true
  | .clearLatch => true
  | .enterCommission => true
  | .format g n => fits 1 g && fits 1 n
  | .setSetting i v => fits 1 i && fits 4 v
  | .getSetting i => fits 1 i
  | .leaveCommission => true

/-- Failed words that are words of the array. -/
def findingsFit (f : Findings) : Bool := (f.pre ++ f.post).all fun x => x.1 < Config.storeWords

/-- An exhaust byte of a STATUS reply (section 11.4). -/
def reportFits (r : StatusReport) : Bool := fits 1 r.exhaust

/-- The host request that a command is, if it is one. -/
def hostRequest (i : Instr) : Option HostReq :=
  match i with
  | .openRecord p a => some (.openRecord p a)
  | .start p => some (.start p)
  | .extend p n => some (.extend p n)
  | .endHeat p => some (.endHeat p)
  | .setHeat p n => some (.setHeat p n)
  | .setOptions p a b => some (.setOptions p a b)
  | .retire p => some (.retire p)
  | .lookup p => some (.lookup p)
  | .hold p => some (.hold p)
  | .release p => some (.release p)
  | .holdMask a b => some (.holdMask a b)
  | .clearPocket p => some (.clearPocket p)
  | .remap p => some (.remap p)
  | .status => some .status
  | .events => some .events
  | .storeReport => some .storeReport
  | .clearLatch => some .clearLatch
  | .enterCommission => some .enterCommission
  | .format g n => some (.format g n)
  | .setSetting i v => some (.setSetting i v)
  | .getSetting i => some (.getSetting i)
  | .leaveCommission => some .leaveCommission
  | .badFrame _ | .droppedRequest | .fetch _ | .storeOperationServe | .translationReadEnd _ | .staticReadEnd _
  | .staticWriteEnd _ | .checkpointEnd _ | .moveEnd _ | .openOperationEnd _ | .retireMapWriteEnd _ | .retireOperationEnd _
  | .remapWriteEnd _ | .markWriteEnd | .settingsWriteEnd | .formatEnd _ | .plannerFrameReadEnd _ | .startScanEnd _
  | .patrolRead _ | .clockStep | .heatExit _ | .coolExit _ | .creaseWindowEnd _ | .tumbleEnd _ | .tumbleDue _
  | .checkpointTimerExpiry _ | .linkFrameSend | .replyWindowExpiry | .statusArrival _ _ | .runAck _ | .heatOnAck _
  | .notReadyRetry _ _ | .notReadyDoorOpen _ | .postedReply _ _ | .replyDiscarded | .retryTimeReached _ | .pollTurn _
  | .offlinePollTimerExpiry _ | .startWindowEnd _ | .grantTimeout _ | .startGapEnd | .sagPulse | .sagWindowExpiry
  | .throttleTimerExpiry | .powerFailWarning | .saveWriteEnd _ | .supplyBreak _ | .settleTimeReached | .outageTimerCount
  | .vbkRetentionLoss | .powerOn _ | .resetPin | .coreSupplyCollapse | .firstPollWindowEnd _ | .firstPollRepoll _
  | .mapRepairEnd _ | .mainsOkReturn _ => none

/-- The words a store event finds failed; none for any other command. -/
def foundBy (i : Instr) : Findings :=
  match i with
  | .translationReadEnd f | .staticReadEnd f | .staticWriteEnd f | .checkpointEnd f | .moveEnd f | .openOperationEnd f
  | .retireMapWriteEnd f | .retireOperationEnd f | .remapWriteEnd f | .formatEnd f | .plannerFrameReadEnd f
  | .startScanEnd f | .patrolRead f | .saveWriteEnd f | .mapRepairEnd f => f
  | _ => ⟨[], []⟩

/-- A command whose operands its source can give. -/
def wellFormed (i : Instr) : Bool :=
  ((hostRequest i).map reqFits).getD true && findingsFit (foundBy i)
    && (match i with
        | .statusArrival _ (.report r) => reportFits r
        | _ => true)

end Sys2Proof
end

