-- ==== Sys2Proof/Safety.lean ====
section
/-! DEFINITION. What is safe of the part, in the terms that statements use: what it answers, the shapes its state keeps,
and the views of a state that say what a command leaves unchanged. -/

namespace Sys2Proof.Machine

/-! ### Outcomes and invariants -/

/-- An outcome with a next state. -/
def completes (o : Host.Outcome State Fault Refusal) : Prop := ∃ t, o = .next t

/-- An outcome with a next state of which `f` holds. -/
def leads (o : Host.Outcome State Fault Refusal) (f : State → Prop) : Prop := ∃ t, o = .next t ∧ f t

/-- The condition list of the store is in its canonical form (log entry 1). -/
def State.storeWf (s : State) : Prop := s.store.wf = true

/-- The pockets that hold a slot, in the order of their grants. -/
def Arbiter.holders (a : Arbiter) : List Pocket := a.slots.map (·.pocket)

/-- At most one slot for a pocket, and no pocket that is both in the start request set and holding a slot (R120, R121). -/
def Arbiter.wf (a : Arbiter) : Prop := a.holders.Nodup ∧ ∀ p, p ∈ a.holders → a.requests[p] = none

/-- The motor of a pocket is desired to run and its heat desired on only where the table of section 1.5 allows. -/
def State.desiredSafe (s : State) (p : Pocket) : Prop := s.heatDesired p = true → s.motorDesired p = true

/-! ### Views

A command ends with convergence, the serving of the wait lists and the grants that it calls for (R93, R96, R119, R131).
These change the link, the reservations, the start requests and slots, the operation queue (which a HEAT_ON joins with
its static read) and the mark that a tumble was granted. The views below blank what may change, so that an equation
between two views says that all the rest is the same. -/

/-- The state without what convergence and the wait lists change: the link, the reservations, the start requests, the
slots, the operation queue and the planner's open window, whose re-poll time follows the link queue. -/
def State.offLink (s : State) : State :=
  { s with link := LinkCtl.reset, heat := HeatUnit.reset
           arb := { s.arb with requests := Vector.replicate 32 none, slots := [], sinceGrant := none }
           plan := { s.plan with window := none }
           ctl := { s.ctl with queue := [] } }

/-- A context without the mark that its next tumble was granted. -/
def Context.ungranted (c : Context) : Context := { c with tumbleGranted := false }

/-- The state without what convergence, the wait lists and grants change. -/
def State.offGrant (s : State) : State := { s.offLink with ctxs := s.ctxs.map (Option.map Context.ungranted) }

/-- The state with the context of `p`, the events, the port and the operation in progress blanked. -/
def State.blankRecord (s : State) (p : Pocket) : State :=
  { s with ctxs := upd s.ctxs p none, events := EventSet.empty, port := HostPort.reset, ctl := { s.ctl with current := none } }

/-- The state without what an event on the record of `p` changes: besides the above, its context, the events, the port
and the operation in progress. -/
def State.offRecord (s : State) (p : Pocket) : State := s.offGrant.blankRecord p

/-! ### Requests -/

/-- The host port can take a request: the core has supply and the port is not BUSY (R178, R179). -/
def State.hostReady (s : State) : Prop := s.powered = true ∧ s.port.state ≠ .busy

/-- The state in which the port has taken `req` and is BUSY with it; the status byte was shifted out as it stood (R178). -/
def State.taken (s : State) (req : HostReq) : State :=
  { s with port := { s.port with state := .busy, request := some req, response := none
                                 shiftedStatus := s.statusByte, shiftedBody := [] } }

/-- The state in which a request that was taken has been answered at once (R178, R184). -/
def State.answered (s : State) (r : Result) (payload : List Byte) : State :=
  { s with port := { s.port with state := .ready, request := none, response := some ⟨r, payload⟩
                                 shiftedStatus := s.statusByte, shiftedBody := [] } }

/-- The state in which the request the port is BUSY with has been answered by its owner (R184). -/
def State.replied (s : State) (r : Result) (payload : List Byte) : State :=
  { s with port := { s.port with state := .ready, request := none, response := some ⟨r, payload⟩ } }

/-- The state with an operation at the tail of the operation queue (R40). -/
def State.queues (s : State) (op : StoreOp) : State := { s with ctl := { s.ctl with queue := s.ctl.queue ++ [op] } }

/-- The state with the context of `p` replaced. -/
def State.withCtx (s : State) (p : Pocket) (c : Option Context) : State := { s with ctxs := upd s.ctxs p c }

/-- The state with the link record of `p` replaced. -/
def State.withLink (s : State) (p : Pocket) (l : PocketLink) : State :=
  { s with link := { s.link with pockets := upd s.link.pockets p l } }

/-- The state with a per-pocket event mark set (R185). -/
def State.marked (s : State) (k : PocketEvent) (p : Pocket) : State := { s with events := s.events.markPocket k p }

/-- The state with a per-pocket event mark set where `b` says so. -/
def State.markedIf (s : State) (b : Bool) (k : PocketEvent) (p : Pocket) : State := if b then s.marked k p else s

/-- The state with a part-wide event mark set (R185). -/
def State.markedPart (s : State) (k : PartEvent) : State := { s with events := s.events.markPart k }

/-- The state with the store idle (R40). -/
def State.storeFreed (s : State) : State := { s with ctl := { s.ctl with current := none } }

/-- The context of `p` once a checkpoint of it has been demanded: one that waits already is not joined by another
(R40, R61). -/
def State.due (s : State) (p : Pocket) (c : Context) : Context :=
  if s.checkpointQueued p then c else { c with checkpoint := if c.checkpoint = .writing then .writing else .queued }

/-- The pocket wants a motor start: its request stands in the set, at `n` or above, or it has been granted a slot
(R112, R120). -/
def State.wantsStart (s : State) (p : Pocket) (n : Nat) : Prop :=
  (∃ m, n ≤ m ∧ s.request p = some m) ∨ (s.slotOf p).isSome = true

/-- The pocket stands in no wait list but that of its own supply phase, as every pocket does (R127). -/
def State.waitsOnItsPhase (s : State) (p : Pocket) : Prop := ∀ x, x ≠ s.phaseOf p → p ∉ s.waitList x

/-- The request on a record that a command is, with its pocket number (R38). -/
def recordRequest (c : Instr) : Option (HostReq × Nat) :=
  match c with
  | .openRecord p a => some (.openRecord p a, p)
  | .start p => some (.start p, p)
  | .extend p n => some (.extend p n, p)
  | .endHeat p => some (.endHeat p, p)
  | .setHeat p n => some (.setHeat p n, p)
  | .setOptions p a b => some (.setOptions p a b, p)
  | .retire p => some (.retire p, p)
  | .lookup p => some (.lookup p, p)
  | _ => none

/-- The payload lengths of the request codes (section 11.2). -/
def payloadLengths (code : Nat) : List Nat :=
  match code with
  | 1 => [6, 12] | 3 => [2] | 5 => [1] | 6 => [2] | 11 => [8] | 19 => [2] | 20 => [5] | 21 => [1] | _ => [0]

/-- The record of `p` is on its way out: the pocket has no start request, no reservation and no place in a wait list, neither
channel is desired on, none of the record's checkpoints, moves and static reads waits, and the retire operation `op` does
(R11, R57). -/
def State.retiring (s : State) (p : Pocket) (op : StoreOp) : Prop :=
  s.request p = none ∧ s.hasReservation p = false ∧ (∀ x, p ∉ s.waitList x) ∧ s.heatDesired p = false ∧
    s.motorDesired p = false ∧ op ∈ s.ctl.queue ∧
    (s.ctl.queue.any fun op => op.isCheckpointOf p || op.isMoveOf p || op.isReadOf p) = false

/-! ### Store operations as they began service -/

/-- No word fails while a store event reads and writes. -/
def noFailures : Findings := ⟨[], []⟩

/-- The operation in progress is `op` as it began service with the accesses `todo` (R40). -/
def State.serving (s : State) (op : StoreOp) (todo : List Access) : Prop := s.ctl.current = some (Running.of op todo)

/-- Every word of frame `f` reads clean (R33). -/
def State.frameClean (s : State) (f : Nat) : Prop := ∀ k, k < frameSize s.geometry → s.store.flaw (frameWord s.geometry f k) = none

/-- In ACTIVE the operation in progress translates `req` for pocket `p`, which is not map-faulted; its map word reads
clean and holds `e` (R38). -/
def State.translating (s : State) (req : HostReq) (p : Pocket) (e : MapEntry) : Prop :=
  s.powered = true ∧ s.part = .active ∧ s.serving (.translation req) [.readMap] ∧ reqPocket req = some p ∧
    s.store.flaw (mapWord p) = none ∧ s.store.map[p] = e ∧ s.ctl.mapFault.has p = false

/-- The same, with the record of `p` live and its context `c` (R38). -/
def State.reaches (s : State) (req : HostReq) (p : Pocket) (c : Context) : Prop :=
  (∃ e, s.translating req p e ∧ e.valid = true) ∧ s.ctx p = some c

/-! ### What store operations write -/

/-- The accesses of an operation that works without a context, but for OPEN, which takes a frame first (R37 to R39, R44,
R143, R157, R193, R194). -/
def accessesOf (op : StoreOp) : Option (List Access) :=
  match op with
  | .translation _ => some [.readMap]
  | .retire _ _ _ _ => some [.retireMap, .retireHeader]
  | .mapRepair _ _ => some [.writeMap]
  | .remap _ => some [.writeMap]
  | .markWrite _ => some [.writeMark]
  | .settingsWrite _ => some [.writeSettings]
  | .format g _ => some (formatTodo g)
  | .plannerRead _ _ => some [.readFrame]
  | _ => none

/-- The state with an operation taken from the head of the queue and in progress (R40). -/
def State.begins (s : State) (rest : List StoreOp) (r : Running) : State :=
  { s with ctl := { s.ctl with queue := rest, current := some r } }

/-- The state with frame `f` replaced. -/
def State.withFrame (s : State) (f : Nat) (x : Frame) : State := { s with store := s.store.setFrame f x }

/-- The state with the map entry of `p` replaced, in the store and in the mirror (R37). -/
def State.withMap (s : State) (p : Pocket) (e : MapEntry) : State :=
  { s with store := { s.store with map := upd s.store.map p e }, ctl := { s.ctl with mirror := upd s.ctl.mirror p e } }

/-- The state after the map word of `p` has been written with `e`, in the array and the mirror; the word then reads clean,
whatever it held (R33, R37). -/
def State.mapWritten (s : State) (p : Pocket) (e : MapEntry) : State :=
  let t := s.withMap p e
  { t with store := t.store.setFlaw (mapWord p) none }

/-- A frame every word of which is written with what `x` holds; a COMPACT frame has no word for a crease plan, extra
seconds and a last fault (section 2.2). -/
def Frame.rewritten (g : Geometry) (x old : Frame) : Frame :=
  match g with
  | .standard => x
  | .compact => { x with plan := old.plan, fast := Fast.blend (allFields .compact) x.fast old.fast }

/-- A move of the record of `p` has just taken frame `new`, and nothing else has happened (R42). -/
def State.movingTo (s : State) (p : Pocket) (old new : Nat) : Prop :=
  s.ctl.current = some { Running.of (.move p old false) (moveTodo s.geometry []) with
    move := some { old := old, new := new, statics := s.safeStatics, stamp := none, saved := false } }

/-- No record is pinned (R43). -/
def State.nonePinned (s : State) : Prop := ∀ p c, s.ctx p = some c → c.pinned = false

/-- A context whose checkpoint has ended with every dirty field written at uptime `t` (R60, R62). -/
def Context.written (c : Context) (t timer : Nat) (saved waits : Bool) : Context :=
  { c with dirty := 0, since := 0, stampPending := false, shadow := { c.shadow with stamp := t, saved := saved }, timer := timer
           checkpoint := if waits then .queued else .idle }

/-- The state in which the record of `p` has gone from CREASE to DONE, but for its PHASE mark (R77). -/
def State.creaseLeft (s : State) (p : Pocket) (c : Context) : State :=
  ((s.withCtx p (some (s.due p { c.change Fast.creaseDone with tumbleLeft := none, tumbleGranted := false }))).markedIf
    (c.fast.hold == .link) .hold p).markedIf (c.fast.status != .none) .resume p

/-- The state in which the crease of the record of `p` has ended and the record is DONE (R76, R77). -/
def State.creaseOver (s : State) (p : Pocket) (c : Context) : State := (s.creaseLeft p c).marked .phase p

/-- A context whose crease progress has been set up from the plan `x` (R71). -/
def Context.creased (c : Context) (x : CreasePlan) : Context :=
  { c.change (fun f => { f with progress := some ⟨x.tumbles, x.interval, x.window, false⟩ }) with interval := x.interval, length := x.length }

/-- The context with the checkpoint timer loaded, and its checkpoint IDLE or waiting (R60, R62). -/
def Context.rested (c : Context) (timer : Nat) (waits : Bool) : Context :=
  { c with timer := timer, checkpoint := if waits then .queued else .idle }

/-! ### The START scan -/

/-- The header area passes the START scan: every word reads, the format agrees, and every item is in its range (R51,
R190). -/
def State.headerSound (s : State) : Prop :=
  (∀ k, k ≤ 12 → s.store.flaw k ≠ some .uncorrectable) ∧ s.store.format.valid = true ∧
    countAgrees s.store.format.geometry s.store.format.count = true ∧
    ∀ i : Nat, 1 ≤ i → i ≤ 95 → itemLow i ≤ s.store.settings.item i ∧ s.store.settings.item i ≤ itemHigh i

/-- A frame is the record frame of `p`: the mirror entry of `p` is valid and names it (R46). -/
def State.isRecordFrame (s : State) (p : Pocket) (f : Nat) : Prop := (s.ctl.mirror[p]).valid = true ∧ (s.ctl.mirror[p]).frame = f

/-- Every frame of the geometry is in the free list, in the quarantine set, or the record frame of one pocket, and in no
two of them (R46). -/
def State.framesPlaced (s : State) : Prop :=
  ∀ f, f < frameCount s.geometry →
    (f ∈ s.ctl.free ∧ s.quarantined f = false ∧ ∀ p, ¬ s.isRecordFrame p f) ∨
    (f ∉ s.ctl.free ∧ s.quarantined f = true ∧ ∀ p, ¬ s.isRecordFrame p f) ∨
    (f ∉ s.ctl.free ∧ s.quarantined f = false ∧ ∃ p, s.isRecordFrame p f ∧ ∀ q, s.isRecordFrame q f → q = p)

/-! ### Clocks -/

/-- The record of `p` has context `c` in a running phase, in ACTIVE, and nothing holds it. -/
def State.runs (s : State) (p : Pocket) (c : Context) : Prop :=
  s.powered = true ∧ s.part = .active ∧ s.ctx p = some c ∧ c.fast.hold = .none

/-! ### The planner -/

/-- The state in which planning begins: the last first-poll window has ended and the outage time is taken (R156, R159). -/
def State.planningBegun (s : State) : State :=
  { s with plan := { s.plan with step := .planning, window := none, next := 0, tOut := s.outageTime } }

/-- In PLAN the window of the last pocket is open, every frame read has ended, no operation of a commit stands, and the
record of lowest pocket is that of `p`, with image `x`; a context held of it names the frame of the image. -/
def State.plansFirst (s : State) (p : Pocket) (x : Image) : Prop :=
  s.powered = true ∧ s.part = .plan ∧ (∃ v, s.plan.window = some v ∧ s.count ≤ v.pocket.val + 1) ∧ p.val < s.count ∧
    (∀ q : Pocket, s.opStands (·.isPlannerReadOf q) = false) ∧ s.opStands StoreOp.isCommit = false ∧
    s.plan.images[p] = some x ∧ (∀ q : Pocket, q.val < p.val → s.plan.images[q] = none) ∧
    ∀ c, s.ctx p = some c → c.frame = x.frame

/-! ### The link -/

/-- In ACTIVE an exchange with pocket `p` is under way for the command of entry `e` (R84, R95). -/
def State.exchanging (s : State) (p : Pocket) (e : Entry) : Prop :=
  s.powered = true ∧ s.part = .active ∧ s.inFlight = some e ∧ e.pocket = some p

/-- No broadcast waits in the queue or is on the wire (R111). -/
def State.noBroadcast (s : State) : Prop := ∀ e ∈ s.link.queue, e.pocket ≠ none

/-- The number of pockets that are ONLINE. -/
def State.onlineCount (s : State) : Nat := (allPockets.filter fun q => (s.pocketLink q).state == .online).length

/-- A command of `kind` for `p` can be posted: the pocket is ONLINE, no SAFE is owed to any pocket, and the limits admit it
(R93, R94, R96). -/
def State.posts (s : State) (p : Pocket) (kind : CommandKind) : Prop :=
  (s.pocketLink p).state = .online ∧ (∀ q, (s.pocketLink q).safeOwed = false) ∧ s.admits p kind = true

/-- STOP has been posted for `p`: it stands in the queue, and no RUN of the pocket waits there unsent (R94, R96). -/
def State.stopped (s : State) (p : Pocket) : Prop :=
  s.queued p .stop = true ∧ (s.pocketLink p).stopPosted = true ∧
    ∀ e ∈ s.link.queue, e.isFor p = true → e.kind = .run → e.state ≠ .unsent

/-- HEAT_OFF has been posted for `p`: it stands in the queue, and no HEAT_ON of the pocket waits there unsent (R94, R96). -/
def State.turnedOff (s : State) (p : Pocket) : Prop :=
  s.queued p .heatOff = true ∧ (s.pocketLink p).heatOffPosted = true ∧
    ∀ e ∈ s.link.queue, e.isFor p = true → e.kind = .heatOn → e.state ≠ .unsent

/-- The exhaust reading that a STATUS leaves, at or below the exit threshold, or absent (R106, R173). -/
def State.coolEnough (s : State) (p : Pocket) (r : StatusReport) : Prop :=
  ∀ y, (if r.exhaust < 255 then some (min 200 r.exhaust) else (s.pocketLink p).exhaust) = some y → y ≤ s.exitThreshold

/-- A record whose COOL_FIRST resumption is under way with its cool remaining `n`, nothing holding it (R173). -/
def Context.coolsFirst (c : Context) (n : Nat) : Prop :=
  c.fast.phase = .cool ∧ c.fast.hold = .none ∧ c.fast.status = .running ∧ c.fast.cls = some .coolFirst ∧
    c.fast.cool = n ∧ c.fast.progress = none ∧ c.awaitCool = false

/-- What the exit of a COOL_FIRST resumption leaves of the fast fields `f` (R174). -/
def Fast.coolFirstOver (f : Fast) : Fast :=
  if f.level = some 15 then { f.endResume with hold := .damaged }
  else if f.interrupted = some .heat then { f.endResume with phase := .heat, hold := .resumeAsk }
  else { f.endResume with phase := .crease, progress := none }

/-- The hold of the record of `p`, if it has one. -/
def State.holdOf (s : State) (p : Pocket) : Option HoldCause := (s.ctx p).map (·.fast.hold)

/-- The queue with the entry in flight changed. -/
def State.flightChanged (s : State) (windowMs : Nat) (f : Entry → Entry) : State :=
  { s with link := { s.link with windowMs := windowMs, queue := s.link.queue.map fun e => if e.state = .inFlight then f e else e } }

/-! ### Start requests -/

/-- `p` has the request that wins a grant: eligible at `level`, with no eligible request above it and none at its level
from a pocket of lower number (R115, R120). -/
def State.wins (s : State) (p : Pocket) (level : Nat) : Prop :=
  s.eligible p = true ∧ s.request p = some level ∧
    ∀ q n, s.eligible q = true → s.request q = some n → n < level ∨ (n = level ∧ p ≤ q)

/-- The arbiter may make a grant (R119). -/
def State.grantAllowed (s : State) : Prop :=
  s.powered = true ∧ s.part = .active ∧ s.arb.slots.length < s.setting 7 ∧ s.sag.active = false

/-! ### Resets -/

/-- The part with every volatile item at its reset value, and the store, the backup domain, the supply lines and the
waiting commands as they stand (R154). -/
def State.afterReset (s : State) (x : SupplyLevels) (b : Backup) : State :=
  { State.reset with
    store := s.store, backup := b, pending := s.pending
    sup := { State.reset.sup with mainsOk := x.mainsOk, pfw := x.pfw, vbkGood := x.vbkGood } }

/-! ### Invariants and the part state -/

/-- The heat budget unit in order: each supply phase's reserved sum is within its budget, a pocket waits on its own supply
phase alone, and outside ACTIVE nothing is reserved and nothing waits (R126, R127, R132). -/
def State.heatKept (s : State) : Prop :=
  (∀ x, s.reservedSum x ≤ s.budget x) ∧ (∀ p x, p ∈ s.waitList x → s.phaseOf p = x) ∧ (s.part ≠ .active → s.heat = HeatUnit.reset)

/-- The start slots in order: no more than the slot count, one for a pocket, none for a pocket in the start request set, and
none outside ACTIVE (R120, R121, R125). -/
def State.slotsKept (s : State) : Prop :=
  s.arb.wf ∧ s.arb.slots.length ≤ s.setting 7 ∧ (s.part ≠ .active → s.arb.slots = [])

/-- A change of part state of R139, or a warning whose save ends at once (R141, R147). A reset leads from anywhere to
START. -/
def partArc (a b : PartState) : Bool :=
  match a, b with
  | _, .start => true
  | .start, .commission => true
  | .start, .plan => true
  | .plan, .active => true
  | .plan, .save => true
  | .plan, .dark => true
  | .active, .save => true
  | .active, .dark => true
  | .active, .commission => true
  | .save, .plan => true
  | .save, .dark => true
  | .dark, .plan => true
  | _, _ => false

/-! ### Frames of events on one pocket -/

/-- The event set without the marks of `p`. -/
def EventSet.without (e : EventSet) (p : Pocket) : EventSet :=
  { e with phase := e.phase.put p false, hold := e.hold.put p false, resume := e.resume.put p false
           link := e.link.put p false, retired := e.retired.put p false, recordLost := e.recordLost.put p false }

/-- Between the states `s` and `t` nothing has changed but the record and the event marks of `p`, and what the end of any
command may change (`State.offRecord`): the store, the supply, the backup domain, the port and every other record stand. -/
def State.sameBut (t s : State) (p : Pocket) : Prop :=
  t.offRecord p = s.offRecord p ∧ t.port = s.port ∧ t.events.without p = s.events.without p

end Sys2Proof.Machine
end

