-- ==== Sys2Proof/Laws/State.lean ====
section
/-! SUPPORT. What each update of the state leaves: one lemma for a field and an update. -/

namespace Sys2Proof.Machine

/-! ### A command begins -/

@[simp] theorem Work.begin_powered (s : State) : (Work.begin s).powered = s.powered := rfl
@[simp] theorem Work.begin_part (s : State) : (Work.begin s).part = s.part := rfl
@[simp] theorem Work.begin_port (s : State) : (Work.begin s).port = s.port := rfl
@[simp] theorem Work.begin_events (s : State) : (Work.begin s).events = s.events := rfl
@[simp] theorem Work.begin_sup (s : State) : (Work.begin s).sup = s.sup := rfl
@[simp] theorem Work.begin_backup (s : State) : (Work.begin s).backup = s.backup := rfl
@[simp] theorem Work.begin_store (s : State) : (Work.begin s).store = s.store := rfl
@[simp] theorem Work.begin_ctl (s : State) : (Work.begin s).ctl = s.ctl := rfl
@[simp] theorem Work.begin_ctxs (s : State) : (Work.begin s).ctxs = s.ctxs := rfl
@[simp] theorem Work.begin_link (s : State) : (Work.begin s).link = s.link := rfl
@[simp] theorem Work.begin_arb (s : State) : (Work.begin s).arb = s.arb := rfl
@[simp] theorem Work.begin_heat (s : State) : (Work.begin s).heat = s.heat := rfl
@[simp] theorem Work.begin_sag (s : State) : (Work.begin s).sag = s.sag := rfl
@[simp] theorem Work.begin_plan (s : State) : (Work.begin s).plan = s.plan := rfl
@[simp] theorem Work.begin_pending (s : State) : (Work.begin s).pending = s.pending := rfl
@[simp] theorem Work.begin_toState (s : State) : (Work.begin s).toState = s := rfl
@[simp] theorem Work.begin_gone (s : State) : (Work.begin s).gone = 0 := rfl
@[simp] theorem Work.begin_anyGone (s : State) : (Work.begin s).anyGone = false := rfl
@[simp] theorem Work.begin_drop (s : State) : (Work.begin s).drop = false := rfl
@[simp] theorem Work.begin_room (s : State) : (Work.begin s).room = none := rfl
@[simp] theorem Work.begin_serve (s : State) : (Work.begin s).serve = false := rfl
@[simp] theorem Work.begin_grant (s : State) : (Work.begin s).grant = false := rfl
@[simp] theorem Work.begin_post (s : State) : (Work.begin s).post = [] := rfl

/-! ### mark -/

@[simp] theorem Work.mark_powered (w : Work) (k : PocketEvent) (p : Pocket) : (w.mark k p).powered = w.powered := rfl
@[simp] theorem Work.mark_part (w : Work) (k : PocketEvent) (p : Pocket) : (w.mark k p).part = w.part := rfl
@[simp] theorem Work.mark_port (w : Work) (k : PocketEvent) (p : Pocket) : (w.mark k p).port = w.port := rfl
@[simp] theorem Work.mark_sup (w : Work) (k : PocketEvent) (p : Pocket) : (w.mark k p).sup = w.sup := rfl
@[simp] theorem Work.mark_backup (w : Work) (k : PocketEvent) (p : Pocket) : (w.mark k p).backup = w.backup := rfl
@[simp] theorem Work.mark_store (w : Work) (k : PocketEvent) (p : Pocket) : (w.mark k p).store = w.store := rfl
@[simp] theorem Work.mark_ctl (w : Work) (k : PocketEvent) (p : Pocket) : (w.mark k p).ctl = w.ctl := rfl
@[simp] theorem Work.mark_ctxs (w : Work) (k : PocketEvent) (p : Pocket) : (w.mark k p).ctxs = w.ctxs := rfl
@[simp] theorem Work.mark_link (w : Work) (k : PocketEvent) (p : Pocket) : (w.mark k p).link = w.link := rfl
@[simp] theorem Work.mark_arb (w : Work) (k : PocketEvent) (p : Pocket) : (w.mark k p).arb = w.arb := rfl
@[simp] theorem Work.mark_heat (w : Work) (k : PocketEvent) (p : Pocket) : (w.mark k p).heat = w.heat := rfl
@[simp] theorem Work.mark_sag (w : Work) (k : PocketEvent) (p : Pocket) : (w.mark k p).sag = w.sag := rfl
@[simp] theorem Work.mark_plan (w : Work) (k : PocketEvent) (p : Pocket) : (w.mark k p).plan = w.plan := rfl
@[simp] theorem Work.mark_pending (w : Work) (k : PocketEvent) (p : Pocket) : (w.mark k p).pending = w.pending := rfl
@[simp] theorem Work.mark_gone (w : Work) (k : PocketEvent) (p : Pocket) : (w.mark k p).gone = w.gone := rfl
@[simp] theorem Work.mark_anyGone (w : Work) (k : PocketEvent) (p : Pocket) : (w.mark k p).anyGone = w.anyGone := rfl
@[simp] theorem Work.mark_drop (w : Work) (k : PocketEvent) (p : Pocket) : (w.mark k p).drop = w.drop := rfl
@[simp] theorem Work.mark_room (w : Work) (k : PocketEvent) (p : Pocket) : (w.mark k p).room = w.room := rfl
@[simp] theorem Work.mark_serve (w : Work) (k : PocketEvent) (p : Pocket) : (w.mark k p).serve = w.serve := rfl
@[simp] theorem Work.mark_grant (w : Work) (k : PocketEvent) (p : Pocket) : (w.mark k p).grant = w.grant := rfl
@[simp] theorem Work.mark_post (w : Work) (k : PocketEvent) (p : Pocket) : (w.mark k p).post = w.post := rfl

/-! ### markPart -/

@[simp] theorem Work.markPart_powered (w : Work) (k : PartEvent) : (w.markPart k).powered = w.powered := rfl
@[simp] theorem Work.markPart_part (w : Work) (k : PartEvent) : (w.markPart k).part = w.part := rfl
@[simp] theorem Work.markPart_port (w : Work) (k : PartEvent) : (w.markPart k).port = w.port := rfl
@[simp] theorem Work.markPart_sup (w : Work) (k : PartEvent) : (w.markPart k).sup = w.sup := rfl
@[simp] theorem Work.markPart_backup (w : Work) (k : PartEvent) : (w.markPart k).backup = w.backup := rfl
@[simp] theorem Work.markPart_store (w : Work) (k : PartEvent) : (w.markPart k).store = w.store := rfl
@[simp] theorem Work.markPart_ctl (w : Work) (k : PartEvent) : (w.markPart k).ctl = w.ctl := rfl
@[simp] theorem Work.markPart_ctxs (w : Work) (k : PartEvent) : (w.markPart k).ctxs = w.ctxs := rfl
@[simp] theorem Work.markPart_link (w : Work) (k : PartEvent) : (w.markPart k).link = w.link := rfl
@[simp] theorem Work.markPart_arb (w : Work) (k : PartEvent) : (w.markPart k).arb = w.arb := rfl
@[simp] theorem Work.markPart_heat (w : Work) (k : PartEvent) : (w.markPart k).heat = w.heat := rfl
@[simp] theorem Work.markPart_sag (w : Work) (k : PartEvent) : (w.markPart k).sag = w.sag := rfl
@[simp] theorem Work.markPart_plan (w : Work) (k : PartEvent) : (w.markPart k).plan = w.plan := rfl
@[simp] theorem Work.markPart_pending (w : Work) (k : PartEvent) : (w.markPart k).pending = w.pending := rfl
@[simp] theorem Work.markPart_gone (w : Work) (k : PartEvent) : (w.markPart k).gone = w.gone := rfl
@[simp] theorem Work.markPart_anyGone (w : Work) (k : PartEvent) : (w.markPart k).anyGone = w.anyGone := rfl
@[simp] theorem Work.markPart_drop (w : Work) (k : PartEvent) : (w.markPart k).drop = w.drop := rfl
@[simp] theorem Work.markPart_room (w : Work) (k : PartEvent) : (w.markPart k).room = w.room := rfl
@[simp] theorem Work.markPart_serve (w : Work) (k : PartEvent) : (w.markPart k).serve = w.serve := rfl
@[simp] theorem Work.markPart_grant (w : Work) (k : PartEvent) : (w.markPart k).grant = w.grant := rfl
@[simp] theorem Work.markPart_post (w : Work) (k : PartEvent) : (w.markPart k).post = w.post := rfl

/-! ### respond -/

@[simp] theorem Work.respond_powered (w : Work) (r : Result) (b : List Byte) : (w.respond r b).powered = w.powered := rfl
@[simp] theorem Work.respond_part (w : Work) (r : Result) (b : List Byte) : (w.respond r b).part = w.part := rfl
@[simp] theorem Work.respond_events (w : Work) (r : Result) (b : List Byte) : (w.respond r b).events = w.events := rfl
@[simp] theorem Work.respond_sup (w : Work) (r : Result) (b : List Byte) : (w.respond r b).sup = w.sup := rfl
@[simp] theorem Work.respond_backup (w : Work) (r : Result) (b : List Byte) : (w.respond r b).backup = w.backup := rfl
@[simp] theorem Work.respond_store (w : Work) (r : Result) (b : List Byte) : (w.respond r b).store = w.store := rfl
@[simp] theorem Work.respond_ctl (w : Work) (r : Result) (b : List Byte) : (w.respond r b).ctl = w.ctl := rfl
@[simp] theorem Work.respond_ctxs (w : Work) (r : Result) (b : List Byte) : (w.respond r b).ctxs = w.ctxs := rfl
@[simp] theorem Work.respond_link (w : Work) (r : Result) (b : List Byte) : (w.respond r b).link = w.link := rfl
@[simp] theorem Work.respond_arb (w : Work) (r : Result) (b : List Byte) : (w.respond r b).arb = w.arb := rfl
@[simp] theorem Work.respond_heat (w : Work) (r : Result) (b : List Byte) : (w.respond r b).heat = w.heat := rfl
@[simp] theorem Work.respond_sag (w : Work) (r : Result) (b : List Byte) : (w.respond r b).sag = w.sag := rfl
@[simp] theorem Work.respond_plan (w : Work) (r : Result) (b : List Byte) : (w.respond r b).plan = w.plan := rfl
@[simp] theorem Work.respond_pending (w : Work) (r : Result) (b : List Byte) : (w.respond r b).pending = w.pending := rfl
@[simp] theorem Work.respond_gone (w : Work) (r : Result) (b : List Byte) : (w.respond r b).gone = w.gone := rfl
@[simp] theorem Work.respond_anyGone (w : Work) (r : Result) (b : List Byte) : (w.respond r b).anyGone = w.anyGone := rfl
@[simp] theorem Work.respond_drop (w : Work) (r : Result) (b : List Byte) : (w.respond r b).drop = w.drop := rfl
@[simp] theorem Work.respond_room (w : Work) (r : Result) (b : List Byte) : (w.respond r b).room = w.room := rfl
@[simp] theorem Work.respond_serve (w : Work) (r : Result) (b : List Byte) : (w.respond r b).serve = w.serve := rfl
@[simp] theorem Work.respond_grant (w : Work) (r : Result) (b : List Byte) : (w.respond r b).grant = w.grant := rfl
@[simp] theorem Work.respond_post (w : Work) (r : Result) (b : List Byte) : (w.respond r b).post = w.post := rfl

/-! ### enter -/

@[simp] theorem Work.enter_powered (w : Work) (x : PartState) : (w.enter x).powered = w.powered := rfl
@[simp] theorem Work.enter_port (w : Work) (x : PartState) : (w.enter x).port = w.port := rfl
@[simp] theorem Work.enter_sup (w : Work) (x : PartState) : (w.enter x).sup = w.sup := rfl
@[simp] theorem Work.enter_backup (w : Work) (x : PartState) : (w.enter x).backup = w.backup := rfl
@[simp] theorem Work.enter_store (w : Work) (x : PartState) : (w.enter x).store = w.store := rfl
@[simp] theorem Work.enter_ctl (w : Work) (x : PartState) : (w.enter x).ctl = w.ctl := rfl
@[simp] theorem Work.enter_ctxs (w : Work) (x : PartState) : (w.enter x).ctxs = w.ctxs := rfl
@[simp] theorem Work.enter_link (w : Work) (x : PartState) : (w.enter x).link = w.link := rfl
@[simp] theorem Work.enter_arb (w : Work) (x : PartState) : (w.enter x).arb = w.arb := rfl
@[simp] theorem Work.enter_heat (w : Work) (x : PartState) : (w.enter x).heat = w.heat := rfl
@[simp] theorem Work.enter_sag (w : Work) (x : PartState) : (w.enter x).sag = w.sag := rfl
@[simp] theorem Work.enter_plan (w : Work) (x : PartState) : (w.enter x).plan = w.plan := rfl
@[simp] theorem Work.enter_pending (w : Work) (x : PartState) : (w.enter x).pending = w.pending := rfl
@[simp] theorem Work.enter_gone (w : Work) (x : PartState) : (w.enter x).gone = w.gone := rfl
@[simp] theorem Work.enter_anyGone (w : Work) (x : PartState) : (w.enter x).anyGone = w.anyGone := rfl
@[simp] theorem Work.enter_drop (w : Work) (x : PartState) : (w.enter x).drop = w.drop := rfl
@[simp] theorem Work.enter_room (w : Work) (x : PartState) : (w.enter x).room = w.room := rfl
@[simp] theorem Work.enter_serve (w : Work) (x : PartState) : (w.enter x).serve = w.serve := rfl
@[simp] theorem Work.enter_grant (w : Work) (x : PartState) : (w.enter x).grant = w.grant := rfl
@[simp] theorem Work.enter_post (w : Work) (x : PartState) : (w.enter x).post = w.post := rfl

/-! ### setCtx -/

@[simp] theorem Work.setCtx_powered (w : Work) (p : Pocket) (c : Option Context) : (w.setCtx p c).powered = w.powered := rfl
@[simp] theorem Work.setCtx_part (w : Work) (p : Pocket) (c : Option Context) : (w.setCtx p c).part = w.part := rfl
@[simp] theorem Work.setCtx_port (w : Work) (p : Pocket) (c : Option Context) : (w.setCtx p c).port = w.port := rfl
@[simp] theorem Work.setCtx_events (w : Work) (p : Pocket) (c : Option Context) : (w.setCtx p c).events = w.events := rfl
@[simp] theorem Work.setCtx_sup (w : Work) (p : Pocket) (c : Option Context) : (w.setCtx p c).sup = w.sup := rfl
@[simp] theorem Work.setCtx_backup (w : Work) (p : Pocket) (c : Option Context) : (w.setCtx p c).backup = w.backup := rfl
@[simp] theorem Work.setCtx_store (w : Work) (p : Pocket) (c : Option Context) : (w.setCtx p c).store = w.store := rfl
@[simp] theorem Work.setCtx_ctl (w : Work) (p : Pocket) (c : Option Context) : (w.setCtx p c).ctl = w.ctl := rfl
@[simp] theorem Work.setCtx_link (w : Work) (p : Pocket) (c : Option Context) : (w.setCtx p c).link = w.link := rfl
@[simp] theorem Work.setCtx_arb (w : Work) (p : Pocket) (c : Option Context) : (w.setCtx p c).arb = w.arb := rfl
@[simp] theorem Work.setCtx_heat (w : Work) (p : Pocket) (c : Option Context) : (w.setCtx p c).heat = w.heat := rfl
@[simp] theorem Work.setCtx_sag (w : Work) (p : Pocket) (c : Option Context) : (w.setCtx p c).sag = w.sag := rfl
@[simp] theorem Work.setCtx_plan (w : Work) (p : Pocket) (c : Option Context) : (w.setCtx p c).plan = w.plan := rfl
@[simp] theorem Work.setCtx_pending (w : Work) (p : Pocket) (c : Option Context) : (w.setCtx p c).pending = w.pending := rfl
@[simp] theorem Work.setCtx_gone (w : Work) (p : Pocket) (c : Option Context) : (w.setCtx p c).gone = w.gone := rfl
@[simp] theorem Work.setCtx_anyGone (w : Work) (p : Pocket) (c : Option Context) : (w.setCtx p c).anyGone = w.anyGone := rfl
@[simp] theorem Work.setCtx_drop (w : Work) (p : Pocket) (c : Option Context) : (w.setCtx p c).drop = w.drop := rfl
@[simp] theorem Work.setCtx_room (w : Work) (p : Pocket) (c : Option Context) : (w.setCtx p c).room = w.room := rfl
@[simp] theorem Work.setCtx_serve (w : Work) (p : Pocket) (c : Option Context) : (w.setCtx p c).serve = w.serve := rfl
@[simp] theorem Work.setCtx_grant (w : Work) (p : Pocket) (c : Option Context) : (w.setCtx p c).grant = w.grant := rfl
@[simp] theorem Work.setCtx_post (w : Work) (p : Pocket) (c : Option Context) : (w.setCtx p c).post = w.post := rfl

/-! ### countCorrectable -/

@[simp] theorem Work.countCorrectable_powered (w : Work) : (w.countCorrectable).powered = w.powered := rfl
@[simp] theorem Work.countCorrectable_part (w : Work) : (w.countCorrectable).part = w.part := rfl
@[simp] theorem Work.countCorrectable_port (w : Work) : (w.countCorrectable).port = w.port := rfl
@[simp] theorem Work.countCorrectable_events (w : Work) : (w.countCorrectable).events = w.events := rfl
@[simp] theorem Work.countCorrectable_sup (w : Work) : (w.countCorrectable).sup = w.sup := rfl
@[simp] theorem Work.countCorrectable_backup (w : Work) : (w.countCorrectable).backup = w.backup := rfl
@[simp] theorem Work.countCorrectable_store (w : Work) : (w.countCorrectable).store = w.store := rfl
@[simp] theorem Work.countCorrectable_ctxs (w : Work) : (w.countCorrectable).ctxs = w.ctxs := rfl
@[simp] theorem Work.countCorrectable_link (w : Work) : (w.countCorrectable).link = w.link := rfl
@[simp] theorem Work.countCorrectable_arb (w : Work) : (w.countCorrectable).arb = w.arb := rfl
@[simp] theorem Work.countCorrectable_heat (w : Work) : (w.countCorrectable).heat = w.heat := rfl
@[simp] theorem Work.countCorrectable_sag (w : Work) : (w.countCorrectable).sag = w.sag := rfl
@[simp] theorem Work.countCorrectable_plan (w : Work) : (w.countCorrectable).plan = w.plan := rfl
@[simp] theorem Work.countCorrectable_pending (w : Work) : (w.countCorrectable).pending = w.pending := rfl
@[simp] theorem Work.countCorrectable_gone (w : Work) : (w.countCorrectable).gone = w.gone := rfl
@[simp] theorem Work.countCorrectable_anyGone (w : Work) : (w.countCorrectable).anyGone = w.anyGone := rfl
@[simp] theorem Work.countCorrectable_drop (w : Work) : (w.countCorrectable).drop = w.drop := rfl
@[simp] theorem Work.countCorrectable_room (w : Work) : (w.countCorrectable).room = w.room := rfl
@[simp] theorem Work.countCorrectable_serve (w : Work) : (w.countCorrectable).serve = w.serve := rfl
@[simp] theorem Work.countCorrectable_grant (w : Work) : (w.countCorrectable).grant = w.grant := rfl
@[simp] theorem Work.countCorrectable_post (w : Work) : (w.countCorrectable).post = w.post := rfl

/-! ### wrote -/

@[simp] theorem Work.wrote_powered (w : Work) (n : Nat) : (w.wrote n).powered = w.powered := rfl
@[simp] theorem Work.wrote_part (w : Work) (n : Nat) : (w.wrote n).part = w.part := rfl
@[simp] theorem Work.wrote_port (w : Work) (n : Nat) : (w.wrote n).port = w.port := rfl
@[simp] theorem Work.wrote_events (w : Work) (n : Nat) : (w.wrote n).events = w.events := rfl
@[simp] theorem Work.wrote_sup (w : Work) (n : Nat) : (w.wrote n).sup = w.sup := rfl
@[simp] theorem Work.wrote_backup (w : Work) (n : Nat) : (w.wrote n).backup = w.backup := rfl
@[simp] theorem Work.wrote_ctl (w : Work) (n : Nat) : (w.wrote n).ctl = w.ctl := rfl
@[simp] theorem Work.wrote_ctxs (w : Work) (n : Nat) : (w.wrote n).ctxs = w.ctxs := rfl
@[simp] theorem Work.wrote_link (w : Work) (n : Nat) : (w.wrote n).link = w.link := rfl
@[simp] theorem Work.wrote_arb (w : Work) (n : Nat) : (w.wrote n).arb = w.arb := rfl
@[simp] theorem Work.wrote_heat (w : Work) (n : Nat) : (w.wrote n).heat = w.heat := rfl
@[simp] theorem Work.wrote_sag (w : Work) (n : Nat) : (w.wrote n).sag = w.sag := rfl
@[simp] theorem Work.wrote_plan (w : Work) (n : Nat) : (w.wrote n).plan = w.plan := rfl
@[simp] theorem Work.wrote_pending (w : Work) (n : Nat) : (w.wrote n).pending = w.pending := rfl
@[simp] theorem Work.wrote_gone (w : Work) (n : Nat) : (w.wrote n).gone = w.gone := rfl
@[simp] theorem Work.wrote_anyGone (w : Work) (n : Nat) : (w.wrote n).anyGone = w.anyGone := rfl
@[simp] theorem Work.wrote_drop (w : Work) (n : Nat) : (w.wrote n).drop = w.drop := rfl
@[simp] theorem Work.wrote_room (w : Work) (n : Nat) : (w.wrote n).room = w.room := rfl
@[simp] theorem Work.wrote_serve (w : Work) (n : Nat) : (w.wrote n).serve = w.serve := rfl
@[simp] theorem Work.wrote_grant (w : Work) (n : Nat) : (w.wrote n).grant = w.grant := rfl
@[simp] theorem Work.wrote_post (w : Work) (n : Nat) : (w.wrote n).post = w.post := rfl

/-! ### fail -/

@[simp] theorem Work.fail_powered (w : Work) (xs : List (Nat × Flaw)) : (w.fail xs).powered = w.powered := rfl
@[simp] theorem Work.fail_part (w : Work) (xs : List (Nat × Flaw)) : (w.fail xs).part = w.part := rfl
@[simp] theorem Work.fail_port (w : Work) (xs : List (Nat × Flaw)) : (w.fail xs).port = w.port := rfl
@[simp] theorem Work.fail_events (w : Work) (xs : List (Nat × Flaw)) : (w.fail xs).events = w.events := rfl
@[simp] theorem Work.fail_sup (w : Work) (xs : List (Nat × Flaw)) : (w.fail xs).sup = w.sup := rfl
@[simp] theorem Work.fail_backup (w : Work) (xs : List (Nat × Flaw)) : (w.fail xs).backup = w.backup := rfl
@[simp] theorem Work.fail_ctl (w : Work) (xs : List (Nat × Flaw)) : (w.fail xs).ctl = w.ctl := rfl
@[simp] theorem Work.fail_ctxs (w : Work) (xs : List (Nat × Flaw)) : (w.fail xs).ctxs = w.ctxs := rfl
@[simp] theorem Work.fail_link (w : Work) (xs : List (Nat × Flaw)) : (w.fail xs).link = w.link := rfl
@[simp] theorem Work.fail_arb (w : Work) (xs : List (Nat × Flaw)) : (w.fail xs).arb = w.arb := rfl
@[simp] theorem Work.fail_heat (w : Work) (xs : List (Nat × Flaw)) : (w.fail xs).heat = w.heat := rfl
@[simp] theorem Work.fail_sag (w : Work) (xs : List (Nat × Flaw)) : (w.fail xs).sag = w.sag := rfl
@[simp] theorem Work.fail_plan (w : Work) (xs : List (Nat × Flaw)) : (w.fail xs).plan = w.plan := rfl
@[simp] theorem Work.fail_pending (w : Work) (xs : List (Nat × Flaw)) : (w.fail xs).pending = w.pending := rfl
@[simp] theorem Work.fail_gone (w : Work) (xs : List (Nat × Flaw)) : (w.fail xs).gone = w.gone := rfl
@[simp] theorem Work.fail_anyGone (w : Work) (xs : List (Nat × Flaw)) : (w.fail xs).anyGone = w.anyGone := rfl
@[simp] theorem Work.fail_drop (w : Work) (xs : List (Nat × Flaw)) : (w.fail xs).drop = w.drop := rfl
@[simp] theorem Work.fail_room (w : Work) (xs : List (Nat × Flaw)) : (w.fail xs).room = w.room := rfl
@[simp] theorem Work.fail_serve (w : Work) (xs : List (Nat × Flaw)) : (w.fail xs).serve = w.serve := rfl
@[simp] theorem Work.fail_grant (w : Work) (xs : List (Nat × Flaw)) : (w.fail xs).grant = w.grant := rfl
@[simp] theorem Work.fail_post (w : Work) (xs : List (Nat × Flaw)) : (w.fail xs).post = w.post := rfl

/-! ### failAfterWrite -/

@[simp] theorem Work.failAfterWrite_powered (w : Work) (n : Nat) : (w.failAfterWrite n).powered = w.powered := rfl
@[simp] theorem Work.failAfterWrite_part (w : Work) (n : Nat) : (w.failAfterWrite n).part = w.part := rfl
@[simp] theorem Work.failAfterWrite_port (w : Work) (n : Nat) : (w.failAfterWrite n).port = w.port := rfl
@[simp] theorem Work.failAfterWrite_events (w : Work) (n : Nat) : (w.failAfterWrite n).events = w.events := rfl
@[simp] theorem Work.failAfterWrite_sup (w : Work) (n : Nat) : (w.failAfterWrite n).sup = w.sup := rfl
@[simp] theorem Work.failAfterWrite_backup (w : Work) (n : Nat) : (w.failAfterWrite n).backup = w.backup := rfl
@[simp] theorem Work.failAfterWrite_ctl (w : Work) (n : Nat) : (w.failAfterWrite n).ctl = w.ctl := rfl
@[simp] theorem Work.failAfterWrite_ctxs (w : Work) (n : Nat) : (w.failAfterWrite n).ctxs = w.ctxs := rfl
@[simp] theorem Work.failAfterWrite_link (w : Work) (n : Nat) : (w.failAfterWrite n).link = w.link := rfl
@[simp] theorem Work.failAfterWrite_arb (w : Work) (n : Nat) : (w.failAfterWrite n).arb = w.arb := rfl
@[simp] theorem Work.failAfterWrite_heat (w : Work) (n : Nat) : (w.failAfterWrite n).heat = w.heat := rfl
@[simp] theorem Work.failAfterWrite_sag (w : Work) (n : Nat) : (w.failAfterWrite n).sag = w.sag := rfl
@[simp] theorem Work.failAfterWrite_plan (w : Work) (n : Nat) : (w.failAfterWrite n).plan = w.plan := rfl
@[simp] theorem Work.failAfterWrite_pending (w : Work) (n : Nat) : (w.failAfterWrite n).pending = w.pending := rfl
@[simp] theorem Work.failAfterWrite_gone (w : Work) (n : Nat) : (w.failAfterWrite n).gone = w.gone := rfl
@[simp] theorem Work.failAfterWrite_anyGone (w : Work) (n : Nat) : (w.failAfterWrite n).anyGone = w.anyGone := rfl
@[simp] theorem Work.failAfterWrite_drop (w : Work) (n : Nat) : (w.failAfterWrite n).drop = w.drop := rfl
@[simp] theorem Work.failAfterWrite_room (w : Work) (n : Nat) : (w.failAfterWrite n).room = w.room := rfl
@[simp] theorem Work.failAfterWrite_serve (w : Work) (n : Nat) : (w.failAfterWrite n).serve = w.serve := rfl
@[simp] theorem Work.failAfterWrite_grant (w : Work) (n : Nat) : (w.failAfterWrite n).grant = w.grant := rfl
@[simp] theorem Work.failAfterWrite_post (w : Work) (n : Nat) : (w.failAfterWrite n).post = w.post := rfl

/-! ### writeHeader -/

@[simp] theorem Work.writeHeader_powered (w : Work) (f : Nat) (h : Header) : (w.writeHeader f h).powered = w.powered := rfl
@[simp] theorem Work.writeHeader_part (w : Work) (f : Nat) (h : Header) : (w.writeHeader f h).part = w.part := rfl
@[simp] theorem Work.writeHeader_port (w : Work) (f : Nat) (h : Header) : (w.writeHeader f h).port = w.port := rfl
@[simp] theorem Work.writeHeader_events (w : Work) (f : Nat) (h : Header) : (w.writeHeader f h).events = w.events := rfl
@[simp] theorem Work.writeHeader_sup (w : Work) (f : Nat) (h : Header) : (w.writeHeader f h).sup = w.sup := rfl
@[simp] theorem Work.writeHeader_backup (w : Work) (f : Nat) (h : Header) : (w.writeHeader f h).backup = w.backup := rfl
@[simp] theorem Work.writeHeader_ctl (w : Work) (f : Nat) (h : Header) : (w.writeHeader f h).ctl = w.ctl := rfl
@[simp] theorem Work.writeHeader_ctxs (w : Work) (f : Nat) (h : Header) : (w.writeHeader f h).ctxs = w.ctxs := rfl
@[simp] theorem Work.writeHeader_link (w : Work) (f : Nat) (h : Header) : (w.writeHeader f h).link = w.link := rfl
@[simp] theorem Work.writeHeader_arb (w : Work) (f : Nat) (h : Header) : (w.writeHeader f h).arb = w.arb := rfl
@[simp] theorem Work.writeHeader_heat (w : Work) (f : Nat) (h : Header) : (w.writeHeader f h).heat = w.heat := rfl
@[simp] theorem Work.writeHeader_sag (w : Work) (f : Nat) (h : Header) : (w.writeHeader f h).sag = w.sag := rfl
@[simp] theorem Work.writeHeader_plan (w : Work) (f : Nat) (h : Header) : (w.writeHeader f h).plan = w.plan := rfl
@[simp] theorem Work.writeHeader_pending (w : Work) (f : Nat) (h : Header) : (w.writeHeader f h).pending = w.pending := rfl
@[simp] theorem Work.writeHeader_gone (w : Work) (f : Nat) (h : Header) : (w.writeHeader f h).gone = w.gone := rfl
@[simp] theorem Work.writeHeader_anyGone (w : Work) (f : Nat) (h : Header) : (w.writeHeader f h).anyGone = w.anyGone := rfl
@[simp] theorem Work.writeHeader_drop (w : Work) (f : Nat) (h : Header) : (w.writeHeader f h).drop = w.drop := rfl
@[simp] theorem Work.writeHeader_room (w : Work) (f : Nat) (h : Header) : (w.writeHeader f h).room = w.room := rfl
@[simp] theorem Work.writeHeader_serve (w : Work) (f : Nat) (h : Header) : (w.writeHeader f h).serve = w.serve := rfl
@[simp] theorem Work.writeHeader_grant (w : Work) (f : Nat) (h : Header) : (w.writeHeader f h).grant = w.grant := rfl
@[simp] theorem Work.writeHeader_post (w : Work) (f : Nat) (h : Header) : (w.writeHeader f h).post = w.post := rfl

/-! ### writeFrameWord -/

@[simp] theorem Work.writeFrameWord_powered (w : Work) (f k : Nat) (x : Frame) : (w.writeFrameWord f k x).powered = w.powered := rfl
@[simp] theorem Work.writeFrameWord_part (w : Work) (f k : Nat) (x : Frame) : (w.writeFrameWord f k x).part = w.part := rfl
@[simp] theorem Work.writeFrameWord_port (w : Work) (f k : Nat) (x : Frame) : (w.writeFrameWord f k x).port = w.port := rfl
@[simp] theorem Work.writeFrameWord_events (w : Work) (f k : Nat) (x : Frame) : (w.writeFrameWord f k x).events = w.events := rfl
@[simp] theorem Work.writeFrameWord_sup (w : Work) (f k : Nat) (x : Frame) : (w.writeFrameWord f k x).sup = w.sup := rfl
@[simp] theorem Work.writeFrameWord_backup (w : Work) (f k : Nat) (x : Frame) : (w.writeFrameWord f k x).backup = w.backup := rfl
@[simp] theorem Work.writeFrameWord_ctl (w : Work) (f k : Nat) (x : Frame) : (w.writeFrameWord f k x).ctl = w.ctl := rfl
@[simp] theorem Work.writeFrameWord_ctxs (w : Work) (f k : Nat) (x : Frame) : (w.writeFrameWord f k x).ctxs = w.ctxs := rfl
@[simp] theorem Work.writeFrameWord_link (w : Work) (f k : Nat) (x : Frame) : (w.writeFrameWord f k x).link = w.link := rfl
@[simp] theorem Work.writeFrameWord_arb (w : Work) (f k : Nat) (x : Frame) : (w.writeFrameWord f k x).arb = w.arb := rfl
@[simp] theorem Work.writeFrameWord_heat (w : Work) (f k : Nat) (x : Frame) : (w.writeFrameWord f k x).heat = w.heat := rfl
@[simp] theorem Work.writeFrameWord_sag (w : Work) (f k : Nat) (x : Frame) : (w.writeFrameWord f k x).sag = w.sag := rfl
@[simp] theorem Work.writeFrameWord_plan (w : Work) (f k : Nat) (x : Frame) : (w.writeFrameWord f k x).plan = w.plan := rfl
@[simp] theorem Work.writeFrameWord_pending (w : Work) (f k : Nat) (x : Frame) : (w.writeFrameWord f k x).pending = w.pending := rfl
@[simp] theorem Work.writeFrameWord_gone (w : Work) (f k : Nat) (x : Frame) : (w.writeFrameWord f k x).gone = w.gone := rfl
@[simp] theorem Work.writeFrameWord_anyGone (w : Work) (f k : Nat) (x : Frame) : (w.writeFrameWord f k x).anyGone = w.anyGone := rfl
@[simp] theorem Work.writeFrameWord_drop (w : Work) (f k : Nat) (x : Frame) : (w.writeFrameWord f k x).drop = w.drop := rfl
@[simp] theorem Work.writeFrameWord_room (w : Work) (f k : Nat) (x : Frame) : (w.writeFrameWord f k x).room = w.room := rfl
@[simp] theorem Work.writeFrameWord_serve (w : Work) (f k : Nat) (x : Frame) : (w.writeFrameWord f k x).serve = w.serve := rfl
@[simp] theorem Work.writeFrameWord_grant (w : Work) (f k : Nat) (x : Frame) : (w.writeFrameWord f k x).grant = w.grant := rfl
@[simp] theorem Work.writeFrameWord_post (w : Work) (f k : Nat) (x : Frame) : (w.writeFrameWord f k x).post = w.post := rfl

/-! ### writeSettingsWord -/

@[simp] theorem Work.writeSettingsWord_powered (w : Work) (x : Settings) (k : Nat) : (w.writeSettingsWord x k).powered = w.powered := rfl
@[simp] theorem Work.writeSettingsWord_part (w : Work) (x : Settings) (k : Nat) : (w.writeSettingsWord x k).part = w.part := rfl
@[simp] theorem Work.writeSettingsWord_port (w : Work) (x : Settings) (k : Nat) : (w.writeSettingsWord x k).port = w.port := rfl
@[simp] theorem Work.writeSettingsWord_events (w : Work) (x : Settings) (k : Nat) : (w.writeSettingsWord x k).events = w.events := rfl
@[simp] theorem Work.writeSettingsWord_sup (w : Work) (x : Settings) (k : Nat) : (w.writeSettingsWord x k).sup = w.sup := rfl
@[simp] theorem Work.writeSettingsWord_backup (w : Work) (x : Settings) (k : Nat) : (w.writeSettingsWord x k).backup = w.backup := rfl
@[simp] theorem Work.writeSettingsWord_ctl (w : Work) (x : Settings) (k : Nat) : (w.writeSettingsWord x k).ctl = w.ctl := rfl
@[simp] theorem Work.writeSettingsWord_ctxs (w : Work) (x : Settings) (k : Nat) : (w.writeSettingsWord x k).ctxs = w.ctxs := rfl
@[simp] theorem Work.writeSettingsWord_link (w : Work) (x : Settings) (k : Nat) : (w.writeSettingsWord x k).link = w.link := rfl
@[simp] theorem Work.writeSettingsWord_arb (w : Work) (x : Settings) (k : Nat) : (w.writeSettingsWord x k).arb = w.arb := rfl
@[simp] theorem Work.writeSettingsWord_heat (w : Work) (x : Settings) (k : Nat) : (w.writeSettingsWord x k).heat = w.heat := rfl
@[simp] theorem Work.writeSettingsWord_sag (w : Work) (x : Settings) (k : Nat) : (w.writeSettingsWord x k).sag = w.sag := rfl
@[simp] theorem Work.writeSettingsWord_plan (w : Work) (x : Settings) (k : Nat) : (w.writeSettingsWord x k).plan = w.plan := rfl
@[simp] theorem Work.writeSettingsWord_pending (w : Work) (x : Settings) (k : Nat) : (w.writeSettingsWord x k).pending = w.pending := rfl
@[simp] theorem Work.writeSettingsWord_gone (w : Work) (x : Settings) (k : Nat) : (w.writeSettingsWord x k).gone = w.gone := rfl
@[simp] theorem Work.writeSettingsWord_anyGone (w : Work) (x : Settings) (k : Nat) : (w.writeSettingsWord x k).anyGone = w.anyGone := rfl
@[simp] theorem Work.writeSettingsWord_drop (w : Work) (x : Settings) (k : Nat) : (w.writeSettingsWord x k).drop = w.drop := rfl
@[simp] theorem Work.writeSettingsWord_room (w : Work) (x : Settings) (k : Nat) : (w.writeSettingsWord x k).room = w.room := rfl
@[simp] theorem Work.writeSettingsWord_serve (w : Work) (x : Settings) (k : Nat) : (w.writeSettingsWord x k).serve = w.serve := rfl
@[simp] theorem Work.writeSettingsWord_grant (w : Work) (x : Settings) (k : Nat) : (w.writeSettingsWord x k).grant = w.grant := rfl
@[simp] theorem Work.writeSettingsWord_post (w : Work) (x : Settings) (k : Nat) : (w.writeSettingsWord x k).post = w.post := rfl

/-! ### writeMark -/

@[simp] theorem Work.writeMark_powered (w : Work) (m : OutageMark) : (w.writeMark m).powered = w.powered := rfl
@[simp] theorem Work.writeMark_part (w : Work) (m : OutageMark) : (w.writeMark m).part = w.part := rfl
@[simp] theorem Work.writeMark_port (w : Work) (m : OutageMark) : (w.writeMark m).port = w.port := rfl
@[simp] theorem Work.writeMark_events (w : Work) (m : OutageMark) : (w.writeMark m).events = w.events := rfl
@[simp] theorem Work.writeMark_sup (w : Work) (m : OutageMark) : (w.writeMark m).sup = w.sup := rfl
@[simp] theorem Work.writeMark_backup (w : Work) (m : OutageMark) : (w.writeMark m).backup = w.backup := rfl
@[simp] theorem Work.writeMark_ctl (w : Work) (m : OutageMark) : (w.writeMark m).ctl = w.ctl := rfl
@[simp] theorem Work.writeMark_ctxs (w : Work) (m : OutageMark) : (w.writeMark m).ctxs = w.ctxs := rfl
@[simp] theorem Work.writeMark_link (w : Work) (m : OutageMark) : (w.writeMark m).link = w.link := rfl
@[simp] theorem Work.writeMark_arb (w : Work) (m : OutageMark) : (w.writeMark m).arb = w.arb := rfl
@[simp] theorem Work.writeMark_heat (w : Work) (m : OutageMark) : (w.writeMark m).heat = w.heat := rfl
@[simp] theorem Work.writeMark_sag (w : Work) (m : OutageMark) : (w.writeMark m).sag = w.sag := rfl
@[simp] theorem Work.writeMark_plan (w : Work) (m : OutageMark) : (w.writeMark m).plan = w.plan := rfl
@[simp] theorem Work.writeMark_pending (w : Work) (m : OutageMark) : (w.writeMark m).pending = w.pending := rfl
@[simp] theorem Work.writeMark_gone (w : Work) (m : OutageMark) : (w.writeMark m).gone = w.gone := rfl
@[simp] theorem Work.writeMark_anyGone (w : Work) (m : OutageMark) : (w.writeMark m).anyGone = w.anyGone := rfl
@[simp] theorem Work.writeMark_drop (w : Work) (m : OutageMark) : (w.writeMark m).drop = w.drop := rfl
@[simp] theorem Work.writeMark_room (w : Work) (m : OutageMark) : (w.writeMark m).room = w.room := rfl
@[simp] theorem Work.writeMark_serve (w : Work) (m : OutageMark) : (w.writeMark m).serve = w.serve := rfl
@[simp] theorem Work.writeMark_grant (w : Work) (m : OutageMark) : (w.writeMark m).grant = w.grant := rfl
@[simp] theorem Work.writeMark_post (w : Work) (m : OutageMark) : (w.writeMark m).post = w.post := rfl

/-! ### writeFormat -/

@[simp] theorem Work.writeFormat_powered (w : Work) (f : FormatWord) : (w.writeFormat f).powered = w.powered := rfl
@[simp] theorem Work.writeFormat_part (w : Work) (f : FormatWord) : (w.writeFormat f).part = w.part := rfl
@[simp] theorem Work.writeFormat_port (w : Work) (f : FormatWord) : (w.writeFormat f).port = w.port := rfl
@[simp] theorem Work.writeFormat_events (w : Work) (f : FormatWord) : (w.writeFormat f).events = w.events := rfl
@[simp] theorem Work.writeFormat_sup (w : Work) (f : FormatWord) : (w.writeFormat f).sup = w.sup := rfl
@[simp] theorem Work.writeFormat_backup (w : Work) (f : FormatWord) : (w.writeFormat f).backup = w.backup := rfl
@[simp] theorem Work.writeFormat_ctl (w : Work) (f : FormatWord) : (w.writeFormat f).ctl = w.ctl := rfl
@[simp] theorem Work.writeFormat_ctxs (w : Work) (f : FormatWord) : (w.writeFormat f).ctxs = w.ctxs := rfl
@[simp] theorem Work.writeFormat_link (w : Work) (f : FormatWord) : (w.writeFormat f).link = w.link := rfl
@[simp] theorem Work.writeFormat_arb (w : Work) (f : FormatWord) : (w.writeFormat f).arb = w.arb := rfl
@[simp] theorem Work.writeFormat_heat (w : Work) (f : FormatWord) : (w.writeFormat f).heat = w.heat := rfl
@[simp] theorem Work.writeFormat_sag (w : Work) (f : FormatWord) : (w.writeFormat f).sag = w.sag := rfl
@[simp] theorem Work.writeFormat_plan (w : Work) (f : FormatWord) : (w.writeFormat f).plan = w.plan := rfl
@[simp] theorem Work.writeFormat_pending (w : Work) (f : FormatWord) : (w.writeFormat f).pending = w.pending := rfl
@[simp] theorem Work.writeFormat_gone (w : Work) (f : FormatWord) : (w.writeFormat f).gone = w.gone := rfl
@[simp] theorem Work.writeFormat_anyGone (w : Work) (f : FormatWord) : (w.writeFormat f).anyGone = w.anyGone := rfl
@[simp] theorem Work.writeFormat_drop (w : Work) (f : FormatWord) : (w.writeFormat f).drop = w.drop := rfl
@[simp] theorem Work.writeFormat_room (w : Work) (f : FormatWord) : (w.writeFormat f).room = w.room := rfl
@[simp] theorem Work.writeFormat_serve (w : Work) (f : FormatWord) : (w.writeFormat f).serve = w.serve := rfl
@[simp] theorem Work.writeFormat_grant (w : Work) (f : FormatWord) : (w.writeFormat f).grant = w.grant := rfl
@[simp] theorem Work.writeFormat_post (w : Work) (f : FormatWord) : (w.writeFormat f).post = w.post := rfl

/-! ### enqueue -/

@[simp] theorem Work.enqueue_powered (w : Work) (op : StoreOp) : (w.enqueue op).powered = w.powered := rfl
@[simp] theorem Work.enqueue_part (w : Work) (op : StoreOp) : (w.enqueue op).part = w.part := rfl
@[simp] theorem Work.enqueue_port (w : Work) (op : StoreOp) : (w.enqueue op).port = w.port := rfl
@[simp] theorem Work.enqueue_events (w : Work) (op : StoreOp) : (w.enqueue op).events = w.events := rfl
@[simp] theorem Work.enqueue_sup (w : Work) (op : StoreOp) : (w.enqueue op).sup = w.sup := rfl
@[simp] theorem Work.enqueue_backup (w : Work) (op : StoreOp) : (w.enqueue op).backup = w.backup := rfl
@[simp] theorem Work.enqueue_store (w : Work) (op : StoreOp) : (w.enqueue op).store = w.store := rfl
@[simp] theorem Work.enqueue_ctxs (w : Work) (op : StoreOp) : (w.enqueue op).ctxs = w.ctxs := rfl
@[simp] theorem Work.enqueue_link (w : Work) (op : StoreOp) : (w.enqueue op).link = w.link := rfl
@[simp] theorem Work.enqueue_arb (w : Work) (op : StoreOp) : (w.enqueue op).arb = w.arb := rfl
@[simp] theorem Work.enqueue_heat (w : Work) (op : StoreOp) : (w.enqueue op).heat = w.heat := rfl
@[simp] theorem Work.enqueue_sag (w : Work) (op : StoreOp) : (w.enqueue op).sag = w.sag := rfl
@[simp] theorem Work.enqueue_plan (w : Work) (op : StoreOp) : (w.enqueue op).plan = w.plan := rfl
@[simp] theorem Work.enqueue_pending (w : Work) (op : StoreOp) : (w.enqueue op).pending = w.pending := rfl
@[simp] theorem Work.enqueue_gone (w : Work) (op : StoreOp) : (w.enqueue op).gone = w.gone := rfl
@[simp] theorem Work.enqueue_anyGone (w : Work) (op : StoreOp) : (w.enqueue op).anyGone = w.anyGone := rfl
@[simp] theorem Work.enqueue_drop (w : Work) (op : StoreOp) : (w.enqueue op).drop = w.drop := rfl
@[simp] theorem Work.enqueue_room (w : Work) (op : StoreOp) : (w.enqueue op).room = w.room := rfl
@[simp] theorem Work.enqueue_serve (w : Work) (op : StoreOp) : (w.enqueue op).serve = w.serve := rfl
@[simp] theorem Work.enqueue_grant (w : Work) (op : StoreOp) : (w.enqueue op).grant = w.grant := rfl
@[simp] theorem Work.enqueue_post (w : Work) (op : StoreOp) : (w.enqueue op).post = w.post := rfl

/-! ### quarantineFrame -/

@[simp] theorem Work.quarantineFrame_powered (w : Work) (f : Nat) : (w.quarantineFrame f).powered = w.powered := rfl
@[simp] theorem Work.quarantineFrame_part (w : Work) (f : Nat) : (w.quarantineFrame f).part = w.part := rfl
@[simp] theorem Work.quarantineFrame_port (w : Work) (f : Nat) : (w.quarantineFrame f).port = w.port := rfl
@[simp] theorem Work.quarantineFrame_sup (w : Work) (f : Nat) : (w.quarantineFrame f).sup = w.sup := rfl
@[simp] theorem Work.quarantineFrame_backup (w : Work) (f : Nat) : (w.quarantineFrame f).backup = w.backup := rfl
@[simp] theorem Work.quarantineFrame_store (w : Work) (f : Nat) : (w.quarantineFrame f).store = w.store := rfl
@[simp] theorem Work.quarantineFrame_ctxs (w : Work) (f : Nat) : (w.quarantineFrame f).ctxs = w.ctxs := rfl
@[simp] theorem Work.quarantineFrame_link (w : Work) (f : Nat) : (w.quarantineFrame f).link = w.link := rfl
@[simp] theorem Work.quarantineFrame_arb (w : Work) (f : Nat) : (w.quarantineFrame f).arb = w.arb := rfl
@[simp] theorem Work.quarantineFrame_heat (w : Work) (f : Nat) : (w.quarantineFrame f).heat = w.heat := rfl
@[simp] theorem Work.quarantineFrame_sag (w : Work) (f : Nat) : (w.quarantineFrame f).sag = w.sag := rfl
@[simp] theorem Work.quarantineFrame_plan (w : Work) (f : Nat) : (w.quarantineFrame f).plan = w.plan := rfl
@[simp] theorem Work.quarantineFrame_pending (w : Work) (f : Nat) : (w.quarantineFrame f).pending = w.pending := rfl
@[simp] theorem Work.quarantineFrame_gone (w : Work) (f : Nat) : (w.quarantineFrame f).gone = w.gone := rfl
@[simp] theorem Work.quarantineFrame_anyGone (w : Work) (f : Nat) : (w.quarantineFrame f).anyGone = w.anyGone := rfl
@[simp] theorem Work.quarantineFrame_drop (w : Work) (f : Nat) : (w.quarantineFrame f).drop = w.drop := rfl
@[simp] theorem Work.quarantineFrame_room (w : Work) (f : Nat) : (w.quarantineFrame f).room = w.room := rfl
@[simp] theorem Work.quarantineFrame_serve (w : Work) (f : Nat) : (w.quarantineFrame f).serve = w.serve := rfl
@[simp] theorem Work.quarantineFrame_grant (w : Work) (f : Nat) : (w.quarantineFrame f).grant = w.grant := rfl
@[simp] theorem Work.quarantineFrame_post (w : Work) (f : Nat) : (w.quarantineFrame f).post = w.post := rfl

/-! ### onLink -/

@[simp] theorem Work.onLink_powered (w : Work) (p : Pocket) (f : PocketLink → PocketLink) : (w.onLink p f).powered = w.powered := rfl
@[simp] theorem Work.onLink_part (w : Work) (p : Pocket) (f : PocketLink → PocketLink) : (w.onLink p f).part = w.part := rfl
@[simp] theorem Work.onLink_port (w : Work) (p : Pocket) (f : PocketLink → PocketLink) : (w.onLink p f).port = w.port := rfl
@[simp] theorem Work.onLink_events (w : Work) (p : Pocket) (f : PocketLink → PocketLink) : (w.onLink p f).events = w.events := rfl
@[simp] theorem Work.onLink_sup (w : Work) (p : Pocket) (f : PocketLink → PocketLink) : (w.onLink p f).sup = w.sup := rfl
@[simp] theorem Work.onLink_backup (w : Work) (p : Pocket) (f : PocketLink → PocketLink) : (w.onLink p f).backup = w.backup := rfl
@[simp] theorem Work.onLink_store (w : Work) (p : Pocket) (f : PocketLink → PocketLink) : (w.onLink p f).store = w.store := rfl
@[simp] theorem Work.onLink_ctl (w : Work) (p : Pocket) (f : PocketLink → PocketLink) : (w.onLink p f).ctl = w.ctl := rfl
@[simp] theorem Work.onLink_ctxs (w : Work) (p : Pocket) (f : PocketLink → PocketLink) : (w.onLink p f).ctxs = w.ctxs := rfl
@[simp] theorem Work.onLink_arb (w : Work) (p : Pocket) (f : PocketLink → PocketLink) : (w.onLink p f).arb = w.arb := rfl
@[simp] theorem Work.onLink_heat (w : Work) (p : Pocket) (f : PocketLink → PocketLink) : (w.onLink p f).heat = w.heat := rfl
@[simp] theorem Work.onLink_sag (w : Work) (p : Pocket) (f : PocketLink → PocketLink) : (w.onLink p f).sag = w.sag := rfl
@[simp] theorem Work.onLink_plan (w : Work) (p : Pocket) (f : PocketLink → PocketLink) : (w.onLink p f).plan = w.plan := rfl
@[simp] theorem Work.onLink_pending (w : Work) (p : Pocket) (f : PocketLink → PocketLink) : (w.onLink p f).pending = w.pending := rfl
@[simp] theorem Work.onLink_gone (w : Work) (p : Pocket) (f : PocketLink → PocketLink) : (w.onLink p f).gone = w.gone := rfl
@[simp] theorem Work.onLink_anyGone (w : Work) (p : Pocket) (f : PocketLink → PocketLink) : (w.onLink p f).anyGone = w.anyGone := rfl
@[simp] theorem Work.onLink_drop (w : Work) (p : Pocket) (f : PocketLink → PocketLink) : (w.onLink p f).drop = w.drop := rfl
@[simp] theorem Work.onLink_room (w : Work) (p : Pocket) (f : PocketLink → PocketLink) : (w.onLink p f).room = w.room := rfl
@[simp] theorem Work.onLink_serve (w : Work) (p : Pocket) (f : PocketLink → PocketLink) : (w.onLink p f).serve = w.serve := rfl
@[simp] theorem Work.onLink_grant (w : Work) (p : Pocket) (f : PocketLink → PocketLink) : (w.onLink p f).grant = w.grant := rfl
@[simp] theorem Work.onLink_post (w : Work) (p : Pocket) (f : PocketLink → PocketLink) : (w.onLink p f).post = w.post := rfl

/-! ### believeMotor -/

@[simp] theorem Work.believeMotor_powered (w : Work) (p : Pocket) (b : Bool) : (w.believeMotor p b).powered = w.powered := rfl
@[simp] theorem Work.believeMotor_part (w : Work) (p : Pocket) (b : Bool) : (w.believeMotor p b).part = w.part := rfl
@[simp] theorem Work.believeMotor_port (w : Work) (p : Pocket) (b : Bool) : (w.believeMotor p b).port = w.port := rfl
@[simp] theorem Work.believeMotor_events (w : Work) (p : Pocket) (b : Bool) : (w.believeMotor p b).events = w.events := rfl
@[simp] theorem Work.believeMotor_sup (w : Work) (p : Pocket) (b : Bool) : (w.believeMotor p b).sup = w.sup := rfl
@[simp] theorem Work.believeMotor_backup (w : Work) (p : Pocket) (b : Bool) : (w.believeMotor p b).backup = w.backup := rfl
@[simp] theorem Work.believeMotor_store (w : Work) (p : Pocket) (b : Bool) : (w.believeMotor p b).store = w.store := rfl
@[simp] theorem Work.believeMotor_ctl (w : Work) (p : Pocket) (b : Bool) : (w.believeMotor p b).ctl = w.ctl := rfl
@[simp] theorem Work.believeMotor_ctxs (w : Work) (p : Pocket) (b : Bool) : (w.believeMotor p b).ctxs = w.ctxs := rfl
@[simp] theorem Work.believeMotor_arb (w : Work) (p : Pocket) (b : Bool) : (w.believeMotor p b).arb = w.arb := rfl
@[simp] theorem Work.believeMotor_heat (w : Work) (p : Pocket) (b : Bool) : (w.believeMotor p b).heat = w.heat := rfl
@[simp] theorem Work.believeMotor_sag (w : Work) (p : Pocket) (b : Bool) : (w.believeMotor p b).sag = w.sag := rfl
@[simp] theorem Work.believeMotor_plan (w : Work) (p : Pocket) (b : Bool) : (w.believeMotor p b).plan = w.plan := rfl
@[simp] theorem Work.believeMotor_pending (w : Work) (p : Pocket) (b : Bool) : (w.believeMotor p b).pending = w.pending := rfl
@[simp] theorem Work.believeMotor_gone (w : Work) (p : Pocket) (b : Bool) : (w.believeMotor p b).gone = w.gone := rfl
@[simp] theorem Work.believeMotor_anyGone (w : Work) (p : Pocket) (b : Bool) : (w.believeMotor p b).anyGone = w.anyGone := rfl
@[simp] theorem Work.believeMotor_drop (w : Work) (p : Pocket) (b : Bool) : (w.believeMotor p b).drop = w.drop := rfl
@[simp] theorem Work.believeMotor_room (w : Work) (p : Pocket) (b : Bool) : (w.believeMotor p b).room = w.room := rfl
@[simp] theorem Work.believeMotor_serve (w : Work) (p : Pocket) (b : Bool) : (w.believeMotor p b).serve = w.serve := rfl
@[simp] theorem Work.believeMotor_grant (w : Work) (p : Pocket) (b : Bool) : (w.believeMotor p b).grant = w.grant := rfl
@[simp] theorem Work.believeMotor_post (w : Work) (p : Pocket) (b : Bool) : (w.believeMotor p b).post = w.post := rfl

/-! ### believeHeat -/

@[simp] theorem Work.believeHeat_powered (w : Work) (p : Pocket) (x : Option Nat) : (w.believeHeat p x).powered = w.powered := rfl
@[simp] theorem Work.believeHeat_part (w : Work) (p : Pocket) (x : Option Nat) : (w.believeHeat p x).part = w.part := rfl
@[simp] theorem Work.believeHeat_port (w : Work) (p : Pocket) (x : Option Nat) : (w.believeHeat p x).port = w.port := rfl
@[simp] theorem Work.believeHeat_events (w : Work) (p : Pocket) (x : Option Nat) : (w.believeHeat p x).events = w.events := rfl
@[simp] theorem Work.believeHeat_sup (w : Work) (p : Pocket) (x : Option Nat) : (w.believeHeat p x).sup = w.sup := rfl
@[simp] theorem Work.believeHeat_backup (w : Work) (p : Pocket) (x : Option Nat) : (w.believeHeat p x).backup = w.backup := rfl
@[simp] theorem Work.believeHeat_store (w : Work) (p : Pocket) (x : Option Nat) : (w.believeHeat p x).store = w.store := rfl
@[simp] theorem Work.believeHeat_ctl (w : Work) (p : Pocket) (x : Option Nat) : (w.believeHeat p x).ctl = w.ctl := rfl
@[simp] theorem Work.believeHeat_ctxs (w : Work) (p : Pocket) (x : Option Nat) : (w.believeHeat p x).ctxs = w.ctxs := rfl
@[simp] theorem Work.believeHeat_arb (w : Work) (p : Pocket) (x : Option Nat) : (w.believeHeat p x).arb = w.arb := rfl
@[simp] theorem Work.believeHeat_heat (w : Work) (p : Pocket) (x : Option Nat) : (w.believeHeat p x).heat = w.heat := rfl
@[simp] theorem Work.believeHeat_sag (w : Work) (p : Pocket) (x : Option Nat) : (w.believeHeat p x).sag = w.sag := rfl
@[simp] theorem Work.believeHeat_plan (w : Work) (p : Pocket) (x : Option Nat) : (w.believeHeat p x).plan = w.plan := rfl
@[simp] theorem Work.believeHeat_pending (w : Work) (p : Pocket) (x : Option Nat) : (w.believeHeat p x).pending = w.pending := rfl
@[simp] theorem Work.believeHeat_gone (w : Work) (p : Pocket) (x : Option Nat) : (w.believeHeat p x).gone = w.gone := rfl
@[simp] theorem Work.believeHeat_anyGone (w : Work) (p : Pocket) (x : Option Nat) : (w.believeHeat p x).anyGone = w.anyGone := rfl
@[simp] theorem Work.believeHeat_drop (w : Work) (p : Pocket) (x : Option Nat) : (w.believeHeat p x).drop = w.drop := rfl
@[simp] theorem Work.believeHeat_room (w : Work) (p : Pocket) (x : Option Nat) : (w.believeHeat p x).room = w.room := rfl
@[simp] theorem Work.believeHeat_serve (w : Work) (p : Pocket) (x : Option Nat) : (w.believeHeat p x).serve = w.serve := rfl
@[simp] theorem Work.believeHeat_grant (w : Work) (p : Pocket) (x : Option Nat) : (w.believeHeat p x).grant = w.grant := rfl
@[simp] theorem Work.believeHeat_post (w : Work) (p : Pocket) (x : Option Nat) : (w.believeHeat p x).post = w.post := rfl

/-! ### believeAllSafe -/

@[simp] theorem Work.believeAllSafe_powered (w : Work) : (w.believeAllSafe).powered = w.powered := rfl
@[simp] theorem Work.believeAllSafe_part (w : Work) : (w.believeAllSafe).part = w.part := rfl
@[simp] theorem Work.believeAllSafe_port (w : Work) : (w.believeAllSafe).port = w.port := rfl
@[simp] theorem Work.believeAllSafe_events (w : Work) : (w.believeAllSafe).events = w.events := rfl
@[simp] theorem Work.believeAllSafe_sup (w : Work) : (w.believeAllSafe).sup = w.sup := rfl
@[simp] theorem Work.believeAllSafe_backup (w : Work) : (w.believeAllSafe).backup = w.backup := rfl
@[simp] theorem Work.believeAllSafe_store (w : Work) : (w.believeAllSafe).store = w.store := rfl
@[simp] theorem Work.believeAllSafe_ctl (w : Work) : (w.believeAllSafe).ctl = w.ctl := rfl
@[simp] theorem Work.believeAllSafe_ctxs (w : Work) : (w.believeAllSafe).ctxs = w.ctxs := rfl
@[simp] theorem Work.believeAllSafe_arb (w : Work) : (w.believeAllSafe).arb = w.arb := rfl
@[simp] theorem Work.believeAllSafe_heat (w : Work) : (w.believeAllSafe).heat = w.heat := rfl
@[simp] theorem Work.believeAllSafe_sag (w : Work) : (w.believeAllSafe).sag = w.sag := rfl
@[simp] theorem Work.believeAllSafe_plan (w : Work) : (w.believeAllSafe).plan = w.plan := rfl
@[simp] theorem Work.believeAllSafe_pending (w : Work) : (w.believeAllSafe).pending = w.pending := rfl
@[simp] theorem Work.believeAllSafe_gone (w : Work) : (w.believeAllSafe).gone = w.gone := rfl
@[simp] theorem Work.believeAllSafe_anyGone (w : Work) : (w.believeAllSafe).anyGone = w.anyGone := rfl
@[simp] theorem Work.believeAllSafe_drop (w : Work) : (w.believeAllSafe).drop = w.drop := rfl
@[simp] theorem Work.believeAllSafe_room (w : Work) : (w.believeAllSafe).room = w.room := rfl
@[simp] theorem Work.believeAllSafe_serve (w : Work) : (w.believeAllSafe).serve = w.serve := rfl
@[simp] theorem Work.believeAllSafe_grant (w : Work) : (w.believeAllSafe).grant = w.grant := rfl
@[simp] theorem Work.believeAllSafe_post (w : Work) : (w.believeAllSafe).post = w.post := rfl

/-! ### setRequest -/

@[simp] theorem Work.setRequest_powered (w : Work) (p : Pocket) (x : Option Nat) : (w.setRequest p x).powered = w.powered := rfl
@[simp] theorem Work.setRequest_part (w : Work) (p : Pocket) (x : Option Nat) : (w.setRequest p x).part = w.part := rfl
@[simp] theorem Work.setRequest_port (w : Work) (p : Pocket) (x : Option Nat) : (w.setRequest p x).port = w.port := rfl
@[simp] theorem Work.setRequest_events (w : Work) (p : Pocket) (x : Option Nat) : (w.setRequest p x).events = w.events := rfl
@[simp] theorem Work.setRequest_sup (w : Work) (p : Pocket) (x : Option Nat) : (w.setRequest p x).sup = w.sup := rfl
@[simp] theorem Work.setRequest_backup (w : Work) (p : Pocket) (x : Option Nat) : (w.setRequest p x).backup = w.backup := rfl
@[simp] theorem Work.setRequest_store (w : Work) (p : Pocket) (x : Option Nat) : (w.setRequest p x).store = w.store := rfl
@[simp] theorem Work.setRequest_ctl (w : Work) (p : Pocket) (x : Option Nat) : (w.setRequest p x).ctl = w.ctl := rfl
@[simp] theorem Work.setRequest_ctxs (w : Work) (p : Pocket) (x : Option Nat) : (w.setRequest p x).ctxs = w.ctxs := rfl
@[simp] theorem Work.setRequest_link (w : Work) (p : Pocket) (x : Option Nat) : (w.setRequest p x).link = w.link := rfl
@[simp] theorem Work.setRequest_heat (w : Work) (p : Pocket) (x : Option Nat) : (w.setRequest p x).heat = w.heat := rfl
@[simp] theorem Work.setRequest_sag (w : Work) (p : Pocket) (x : Option Nat) : (w.setRequest p x).sag = w.sag := rfl
@[simp] theorem Work.setRequest_plan (w : Work) (p : Pocket) (x : Option Nat) : (w.setRequest p x).plan = w.plan := rfl
@[simp] theorem Work.setRequest_pending (w : Work) (p : Pocket) (x : Option Nat) : (w.setRequest p x).pending = w.pending := rfl
@[simp] theorem Work.setRequest_gone (w : Work) (p : Pocket) (x : Option Nat) : (w.setRequest p x).gone = w.gone := rfl
@[simp] theorem Work.setRequest_anyGone (w : Work) (p : Pocket) (x : Option Nat) : (w.setRequest p x).anyGone = w.anyGone := rfl
@[simp] theorem Work.setRequest_drop (w : Work) (p : Pocket) (x : Option Nat) : (w.setRequest p x).drop = w.drop := rfl
@[simp] theorem Work.setRequest_room (w : Work) (p : Pocket) (x : Option Nat) : (w.setRequest p x).room = w.room := rfl
@[simp] theorem Work.setRequest_serve (w : Work) (p : Pocket) (x : Option Nat) : (w.setRequest p x).serve = w.serve := rfl
@[simp] theorem Work.setRequest_grant (w : Work) (p : Pocket) (x : Option Nat) : (w.setRequest p x).grant = w.grant := rfl
@[simp] theorem Work.setRequest_post (w : Work) (p : Pocket) (x : Option Nat) : (w.setRequest p x).post = w.post := rfl

/-! ### onSlot -/

@[simp] theorem Work.onSlot_powered (w : Work) (p : Pocket) (f : Slot → Slot) : (w.onSlot p f).powered = w.powered := rfl
@[simp] theorem Work.onSlot_part (w : Work) (p : Pocket) (f : Slot → Slot) : (w.onSlot p f).part = w.part := rfl
@[simp] theorem Work.onSlot_port (w : Work) (p : Pocket) (f : Slot → Slot) : (w.onSlot p f).port = w.port := rfl
@[simp] theorem Work.onSlot_events (w : Work) (p : Pocket) (f : Slot → Slot) : (w.onSlot p f).events = w.events := rfl
@[simp] theorem Work.onSlot_sup (w : Work) (p : Pocket) (f : Slot → Slot) : (w.onSlot p f).sup = w.sup := rfl
@[simp] theorem Work.onSlot_backup (w : Work) (p : Pocket) (f : Slot → Slot) : (w.onSlot p f).backup = w.backup := rfl
@[simp] theorem Work.onSlot_store (w : Work) (p : Pocket) (f : Slot → Slot) : (w.onSlot p f).store = w.store := rfl
@[simp] theorem Work.onSlot_ctl (w : Work) (p : Pocket) (f : Slot → Slot) : (w.onSlot p f).ctl = w.ctl := rfl
@[simp] theorem Work.onSlot_ctxs (w : Work) (p : Pocket) (f : Slot → Slot) : (w.onSlot p f).ctxs = w.ctxs := rfl
@[simp] theorem Work.onSlot_link (w : Work) (p : Pocket) (f : Slot → Slot) : (w.onSlot p f).link = w.link := rfl
@[simp] theorem Work.onSlot_heat (w : Work) (p : Pocket) (f : Slot → Slot) : (w.onSlot p f).heat = w.heat := rfl
@[simp] theorem Work.onSlot_sag (w : Work) (p : Pocket) (f : Slot → Slot) : (w.onSlot p f).sag = w.sag := rfl
@[simp] theorem Work.onSlot_plan (w : Work) (p : Pocket) (f : Slot → Slot) : (w.onSlot p f).plan = w.plan := rfl
@[simp] theorem Work.onSlot_pending (w : Work) (p : Pocket) (f : Slot → Slot) : (w.onSlot p f).pending = w.pending := rfl
@[simp] theorem Work.onSlot_gone (w : Work) (p : Pocket) (f : Slot → Slot) : (w.onSlot p f).gone = w.gone := rfl
@[simp] theorem Work.onSlot_anyGone (w : Work) (p : Pocket) (f : Slot → Slot) : (w.onSlot p f).anyGone = w.anyGone := rfl
@[simp] theorem Work.onSlot_drop (w : Work) (p : Pocket) (f : Slot → Slot) : (w.onSlot p f).drop = w.drop := rfl
@[simp] theorem Work.onSlot_room (w : Work) (p : Pocket) (f : Slot → Slot) : (w.onSlot p f).room = w.room := rfl
@[simp] theorem Work.onSlot_serve (w : Work) (p : Pocket) (f : Slot → Slot) : (w.onSlot p f).serve = w.serve := rfl
@[simp] theorem Work.onSlot_grant (w : Work) (p : Pocket) (f : Slot → Slot) : (w.onSlot p f).grant = w.grant := rfl
@[simp] theorem Work.onSlot_post (w : Work) (p : Pocket) (f : Slot → Slot) : (w.onSlot p f).post = w.post := rfl

/-! ### removeRequest -/

@[simp] theorem Work.removeRequest_powered (w : Work) (p : Pocket) : (w.removeRequest p).powered = w.powered := rfl
@[simp] theorem Work.removeRequest_part (w : Work) (p : Pocket) : (w.removeRequest p).part = w.part := rfl
@[simp] theorem Work.removeRequest_port (w : Work) (p : Pocket) : (w.removeRequest p).port = w.port := rfl
@[simp] theorem Work.removeRequest_events (w : Work) (p : Pocket) : (w.removeRequest p).events = w.events := rfl
@[simp] theorem Work.removeRequest_sup (w : Work) (p : Pocket) : (w.removeRequest p).sup = w.sup := rfl
@[simp] theorem Work.removeRequest_backup (w : Work) (p : Pocket) : (w.removeRequest p).backup = w.backup := rfl
@[simp] theorem Work.removeRequest_store (w : Work) (p : Pocket) : (w.removeRequest p).store = w.store := rfl
@[simp] theorem Work.removeRequest_ctl (w : Work) (p : Pocket) : (w.removeRequest p).ctl = w.ctl := rfl
@[simp] theorem Work.removeRequest_ctxs (w : Work) (p : Pocket) : (w.removeRequest p).ctxs = w.ctxs := rfl
@[simp] theorem Work.removeRequest_link (w : Work) (p : Pocket) : (w.removeRequest p).link = w.link := rfl
@[simp] theorem Work.removeRequest_heat (w : Work) (p : Pocket) : (w.removeRequest p).heat = w.heat := rfl
@[simp] theorem Work.removeRequest_sag (w : Work) (p : Pocket) : (w.removeRequest p).sag = w.sag := rfl
@[simp] theorem Work.removeRequest_plan (w : Work) (p : Pocket) : (w.removeRequest p).plan = w.plan := rfl
@[simp] theorem Work.removeRequest_pending (w : Work) (p : Pocket) : (w.removeRequest p).pending = w.pending := rfl
@[simp] theorem Work.removeRequest_gone (w : Work) (p : Pocket) : (w.removeRequest p).gone = w.gone := rfl
@[simp] theorem Work.removeRequest_anyGone (w : Work) (p : Pocket) : (w.removeRequest p).anyGone = w.anyGone := rfl
@[simp] theorem Work.removeRequest_drop (w : Work) (p : Pocket) : (w.removeRequest p).drop = w.drop := rfl
@[simp] theorem Work.removeRequest_room (w : Work) (p : Pocket) : (w.removeRequest p).room = w.room := rfl
@[simp] theorem Work.removeRequest_serve (w : Work) (p : Pocket) : (w.removeRequest p).serve = w.serve := rfl
@[simp] theorem Work.removeRequest_grant (w : Work) (p : Pocket) : (w.removeRequest p).grant = w.grant := rfl
@[simp] theorem Work.removeRequest_post (w : Work) (p : Pocket) : (w.removeRequest p).post = w.post := rfl

/-! ### releaseSlot -/

@[simp] theorem Work.releaseSlot_powered (w : Work) (p : Pocket) : (w.releaseSlot p).powered = w.powered := rfl
@[simp] theorem Work.releaseSlot_part (w : Work) (p : Pocket) : (w.releaseSlot p).part = w.part := rfl
@[simp] theorem Work.releaseSlot_port (w : Work) (p : Pocket) : (w.releaseSlot p).port = w.port := rfl
@[simp] theorem Work.releaseSlot_events (w : Work) (p : Pocket) : (w.releaseSlot p).events = w.events := rfl
@[simp] theorem Work.releaseSlot_sup (w : Work) (p : Pocket) : (w.releaseSlot p).sup = w.sup := rfl
@[simp] theorem Work.releaseSlot_backup (w : Work) (p : Pocket) : (w.releaseSlot p).backup = w.backup := rfl
@[simp] theorem Work.releaseSlot_store (w : Work) (p : Pocket) : (w.releaseSlot p).store = w.store := rfl
@[simp] theorem Work.releaseSlot_ctl (w : Work) (p : Pocket) : (w.releaseSlot p).ctl = w.ctl := rfl
@[simp] theorem Work.releaseSlot_ctxs (w : Work) (p : Pocket) : (w.releaseSlot p).ctxs = w.ctxs := rfl
@[simp] theorem Work.releaseSlot_link (w : Work) (p : Pocket) : (w.releaseSlot p).link = w.link := rfl
@[simp] theorem Work.releaseSlot_heat (w : Work) (p : Pocket) : (w.releaseSlot p).heat = w.heat := rfl
@[simp] theorem Work.releaseSlot_sag (w : Work) (p : Pocket) : (w.releaseSlot p).sag = w.sag := rfl
@[simp] theorem Work.releaseSlot_plan (w : Work) (p : Pocket) : (w.releaseSlot p).plan = w.plan := rfl
@[simp] theorem Work.releaseSlot_pending (w : Work) (p : Pocket) : (w.releaseSlot p).pending = w.pending := rfl
@[simp] theorem Work.releaseSlot_gone (w : Work) (p : Pocket) : (w.releaseSlot p).gone = w.gone := rfl
@[simp] theorem Work.releaseSlot_anyGone (w : Work) (p : Pocket) : (w.releaseSlot p).anyGone = w.anyGone := rfl
@[simp] theorem Work.releaseSlot_drop (w : Work) (p : Pocket) : (w.releaseSlot p).drop = w.drop := rfl
@[simp] theorem Work.releaseSlot_room (w : Work) (p : Pocket) : (w.releaseSlot p).room = w.room := rfl
@[simp] theorem Work.releaseSlot_serve (w : Work) (p : Pocket) : (w.releaseSlot p).serve = w.serve := rfl
@[simp] theorem Work.releaseSlot_post (w : Work) (p : Pocket) : (w.releaseSlot p).post = w.post := rfl

/-! ### setQueue -/

@[simp] theorem Work.setQueue_powered (w : Work) (q : List Entry) : (w.setQueue q).powered = w.powered := rfl
@[simp] theorem Work.setQueue_part (w : Work) (q : List Entry) : (w.setQueue q).part = w.part := rfl
@[simp] theorem Work.setQueue_port (w : Work) (q : List Entry) : (w.setQueue q).port = w.port := rfl
@[simp] theorem Work.setQueue_events (w : Work) (q : List Entry) : (w.setQueue q).events = w.events := rfl
@[simp] theorem Work.setQueue_sup (w : Work) (q : List Entry) : (w.setQueue q).sup = w.sup := rfl
@[simp] theorem Work.setQueue_backup (w : Work) (q : List Entry) : (w.setQueue q).backup = w.backup := rfl
@[simp] theorem Work.setQueue_store (w : Work) (q : List Entry) : (w.setQueue q).store = w.store := rfl
@[simp] theorem Work.setQueue_ctl (w : Work) (q : List Entry) : (w.setQueue q).ctl = w.ctl := rfl
@[simp] theorem Work.setQueue_ctxs (w : Work) (q : List Entry) : (w.setQueue q).ctxs = w.ctxs := rfl
@[simp] theorem Work.setQueue_arb (w : Work) (q : List Entry) : (w.setQueue q).arb = w.arb := rfl
@[simp] theorem Work.setQueue_heat (w : Work) (q : List Entry) : (w.setQueue q).heat = w.heat := rfl
@[simp] theorem Work.setQueue_sag (w : Work) (q : List Entry) : (w.setQueue q).sag = w.sag := rfl
@[simp] theorem Work.setQueue_plan (w : Work) (q : List Entry) : (w.setQueue q).plan = w.plan := rfl
@[simp] theorem Work.setQueue_pending (w : Work) (q : List Entry) : (w.setQueue q).pending = w.pending := rfl
@[simp] theorem Work.setQueue_gone (w : Work) (q : List Entry) : (w.setQueue q).gone = w.gone := rfl
@[simp] theorem Work.setQueue_anyGone (w : Work) (q : List Entry) : (w.setQueue q).anyGone = w.anyGone := rfl
@[simp] theorem Work.setQueue_drop (w : Work) (q : List Entry) : (w.setQueue q).drop = w.drop := rfl
@[simp] theorem Work.setQueue_room (w : Work) (q : List Entry) : (w.setQueue q).room = w.room := rfl
@[simp] theorem Work.setQueue_serve (w : Work) (q : List Entry) : (w.setQueue q).serve = w.serve := rfl
@[simp] theorem Work.setQueue_grant (w : Work) (q : List Entry) : (w.setQueue q).grant = w.grant := rfl
@[simp] theorem Work.setQueue_post (w : Work) (q : List Entry) : (w.setQueue q).post = w.post := rfl

/-! ### sendEntry -/

@[simp] theorem Work.sendEntry_powered (w : Work) (f : Entry → Bool) (e : Entry) : (w.sendEntry f e).powered = w.powered := rfl
@[simp] theorem Work.sendEntry_part (w : Work) (f : Entry → Bool) (e : Entry) : (w.sendEntry f e).part = w.part := rfl
@[simp] theorem Work.sendEntry_port (w : Work) (f : Entry → Bool) (e : Entry) : (w.sendEntry f e).port = w.port := rfl
@[simp] theorem Work.sendEntry_events (w : Work) (f : Entry → Bool) (e : Entry) : (w.sendEntry f e).events = w.events := rfl
@[simp] theorem Work.sendEntry_sup (w : Work) (f : Entry → Bool) (e : Entry) : (w.sendEntry f e).sup = w.sup := rfl
@[simp] theorem Work.sendEntry_backup (w : Work) (f : Entry → Bool) (e : Entry) : (w.sendEntry f e).backup = w.backup := rfl
@[simp] theorem Work.sendEntry_store (w : Work) (f : Entry → Bool) (e : Entry) : (w.sendEntry f e).store = w.store := rfl
@[simp] theorem Work.sendEntry_ctl (w : Work) (f : Entry → Bool) (e : Entry) : (w.sendEntry f e).ctl = w.ctl := rfl
@[simp] theorem Work.sendEntry_ctxs (w : Work) (f : Entry → Bool) (e : Entry) : (w.sendEntry f e).ctxs = w.ctxs := rfl
@[simp] theorem Work.sendEntry_arb (w : Work) (f : Entry → Bool) (e : Entry) : (w.sendEntry f e).arb = w.arb := rfl
@[simp] theorem Work.sendEntry_heat (w : Work) (f : Entry → Bool) (e : Entry) : (w.sendEntry f e).heat = w.heat := rfl
@[simp] theorem Work.sendEntry_sag (w : Work) (f : Entry → Bool) (e : Entry) : (w.sendEntry f e).sag = w.sag := rfl
@[simp] theorem Work.sendEntry_plan (w : Work) (f : Entry → Bool) (e : Entry) : (w.sendEntry f e).plan = w.plan := rfl
@[simp] theorem Work.sendEntry_pending (w : Work) (f : Entry → Bool) (e : Entry) : (w.sendEntry f e).pending = w.pending := rfl
@[simp] theorem Work.sendEntry_gone (w : Work) (f : Entry → Bool) (e : Entry) : (w.sendEntry f e).gone = w.gone := rfl
@[simp] theorem Work.sendEntry_anyGone (w : Work) (f : Entry → Bool) (e : Entry) : (w.sendEntry f e).anyGone = w.anyGone := rfl
@[simp] theorem Work.sendEntry_drop (w : Work) (f : Entry → Bool) (e : Entry) : (w.sendEntry f e).drop = w.drop := rfl
@[simp] theorem Work.sendEntry_room (w : Work) (f : Entry → Bool) (e : Entry) : (w.sendEntry f e).room = w.room := rfl
@[simp] theorem Work.sendEntry_serve (w : Work) (f : Entry → Bool) (e : Entry) : (w.sendEntry f e).serve = w.serve := rfl
@[simp] theorem Work.sendEntry_grant (w : Work) (f : Entry → Bool) (e : Entry) : (w.sendEntry f e).grant = w.grant := rfl
@[simp] theorem Work.sendEntry_post (w : Work) (f : Entry → Bool) (e : Entry) : (w.sendEntry f e).post = w.post := rfl

/-! ### resend -/

@[simp] theorem Work.resend_powered (w : Work) : (w.resend).powered = w.powered := rfl
@[simp] theorem Work.resend_part (w : Work) : (w.resend).part = w.part := rfl
@[simp] theorem Work.resend_port (w : Work) : (w.resend).port = w.port := rfl
@[simp] theorem Work.resend_events (w : Work) : (w.resend).events = w.events := rfl
@[simp] theorem Work.resend_sup (w : Work) : (w.resend).sup = w.sup := rfl
@[simp] theorem Work.resend_backup (w : Work) : (w.resend).backup = w.backup := rfl
@[simp] theorem Work.resend_store (w : Work) : (w.resend).store = w.store := rfl
@[simp] theorem Work.resend_ctl (w : Work) : (w.resend).ctl = w.ctl := rfl
@[simp] theorem Work.resend_ctxs (w : Work) : (w.resend).ctxs = w.ctxs := rfl
@[simp] theorem Work.resend_arb (w : Work) : (w.resend).arb = w.arb := rfl
@[simp] theorem Work.resend_heat (w : Work) : (w.resend).heat = w.heat := rfl
@[simp] theorem Work.resend_sag (w : Work) : (w.resend).sag = w.sag := rfl
@[simp] theorem Work.resend_plan (w : Work) : (w.resend).plan = w.plan := rfl
@[simp] theorem Work.resend_pending (w : Work) : (w.resend).pending = w.pending := rfl
@[simp] theorem Work.resend_gone (w : Work) : (w.resend).gone = w.gone := rfl
@[simp] theorem Work.resend_anyGone (w : Work) : (w.resend).anyGone = w.anyGone := rfl
@[simp] theorem Work.resend_drop (w : Work) : (w.resend).drop = w.drop := rfl
@[simp] theorem Work.resend_room (w : Work) : (w.resend).room = w.room := rfl
@[simp] theorem Work.resend_serve (w : Work) : (w.resend).serve = w.serve := rfl
@[simp] theorem Work.resend_grant (w : Work) : (w.resend).grant = w.grant := rfl
@[simp] theorem Work.resend_post (w : Work) : (w.resend).post = w.post := rfl

/-! ### waitRetry -/

@[simp] theorem Work.waitRetry_powered (w : Work) (n : Nat) : (w.waitRetry n).powered = w.powered := rfl
@[simp] theorem Work.waitRetry_part (w : Work) (n : Nat) : (w.waitRetry n).part = w.part := rfl
@[simp] theorem Work.waitRetry_port (w : Work) (n : Nat) : (w.waitRetry n).port = w.port := rfl
@[simp] theorem Work.waitRetry_events (w : Work) (n : Nat) : (w.waitRetry n).events = w.events := rfl
@[simp] theorem Work.waitRetry_sup (w : Work) (n : Nat) : (w.waitRetry n).sup = w.sup := rfl
@[simp] theorem Work.waitRetry_backup (w : Work) (n : Nat) : (w.waitRetry n).backup = w.backup := rfl
@[simp] theorem Work.waitRetry_store (w : Work) (n : Nat) : (w.waitRetry n).store = w.store := rfl
@[simp] theorem Work.waitRetry_ctl (w : Work) (n : Nat) : (w.waitRetry n).ctl = w.ctl := rfl
@[simp] theorem Work.waitRetry_ctxs (w : Work) (n : Nat) : (w.waitRetry n).ctxs = w.ctxs := rfl
@[simp] theorem Work.waitRetry_arb (w : Work) (n : Nat) : (w.waitRetry n).arb = w.arb := rfl
@[simp] theorem Work.waitRetry_heat (w : Work) (n : Nat) : (w.waitRetry n).heat = w.heat := rfl
@[simp] theorem Work.waitRetry_sag (w : Work) (n : Nat) : (w.waitRetry n).sag = w.sag := rfl
@[simp] theorem Work.waitRetry_plan (w : Work) (n : Nat) : (w.waitRetry n).plan = w.plan := rfl
@[simp] theorem Work.waitRetry_pending (w : Work) (n : Nat) : (w.waitRetry n).pending = w.pending := rfl
@[simp] theorem Work.waitRetry_gone (w : Work) (n : Nat) : (w.waitRetry n).gone = w.gone := rfl
@[simp] theorem Work.waitRetry_anyGone (w : Work) (n : Nat) : (w.waitRetry n).anyGone = w.anyGone := rfl
@[simp] theorem Work.waitRetry_drop (w : Work) (n : Nat) : (w.waitRetry n).drop = w.drop := rfl
@[simp] theorem Work.waitRetry_room (w : Work) (n : Nat) : (w.waitRetry n).room = w.room := rfl
@[simp] theorem Work.waitRetry_serve (w : Work) (n : Nat) : (w.waitRetry n).serve = w.serve := rfl
@[simp] theorem Work.waitRetry_grant (w : Work) (n : Nat) : (w.waitRetry n).grant = w.grant := rfl
@[simp] theorem Work.waitRetry_post (w : Work) (n : Nat) : (w.waitRetry n).post = w.post := rfl

/-! ### serveOp -/

@[simp] theorem Work.serveOp_powered (w : Work) (r : Running) : (w.serveOp r).powered = w.powered := rfl
@[simp] theorem Work.serveOp_part (w : Work) (r : Running) : (w.serveOp r).part = w.part := rfl
@[simp] theorem Work.serveOp_port (w : Work) (r : Running) : (w.serveOp r).port = w.port := rfl
@[simp] theorem Work.serveOp_events (w : Work) (r : Running) : (w.serveOp r).events = w.events := rfl
@[simp] theorem Work.serveOp_sup (w : Work) (r : Running) : (w.serveOp r).sup = w.sup := rfl
@[simp] theorem Work.serveOp_backup (w : Work) (r : Running) : (w.serveOp r).backup = w.backup := rfl
@[simp] theorem Work.serveOp_store (w : Work) (r : Running) : (w.serveOp r).store = w.store := rfl
@[simp] theorem Work.serveOp_ctxs (w : Work) (r : Running) : (w.serveOp r).ctxs = w.ctxs := rfl
@[simp] theorem Work.serveOp_link (w : Work) (r : Running) : (w.serveOp r).link = w.link := rfl
@[simp] theorem Work.serveOp_arb (w : Work) (r : Running) : (w.serveOp r).arb = w.arb := rfl
@[simp] theorem Work.serveOp_heat (w : Work) (r : Running) : (w.serveOp r).heat = w.heat := rfl
@[simp] theorem Work.serveOp_sag (w : Work) (r : Running) : (w.serveOp r).sag = w.sag := rfl
@[simp] theorem Work.serveOp_plan (w : Work) (r : Running) : (w.serveOp r).plan = w.plan := rfl
@[simp] theorem Work.serveOp_pending (w : Work) (r : Running) : (w.serveOp r).pending = w.pending := rfl
@[simp] theorem Work.serveOp_gone (w : Work) (r : Running) : (w.serveOp r).gone = w.gone := rfl
@[simp] theorem Work.serveOp_anyGone (w : Work) (r : Running) : (w.serveOp r).anyGone = w.anyGone := rfl
@[simp] theorem Work.serveOp_drop (w : Work) (r : Running) : (w.serveOp r).drop = w.drop := rfl
@[simp] theorem Work.serveOp_room (w : Work) (r : Running) : (w.serveOp r).room = w.room := rfl
@[simp] theorem Work.serveOp_serve (w : Work) (r : Running) : (w.serveOp r).serve = w.serve := rfl
@[simp] theorem Work.serveOp_grant (w : Work) (r : Running) : (w.serveOp r).grant = w.grant := rfl
@[simp] theorem Work.serveOp_post (w : Work) (r : Running) : (w.serveOp r).post = w.post := rfl

/-! ### onRun -/

@[simp] theorem Work.onRun_powered (w : Work) (f : Running → Running) : (w.onRun f).powered = w.powered := rfl
@[simp] theorem Work.onRun_part (w : Work) (f : Running → Running) : (w.onRun f).part = w.part := rfl
@[simp] theorem Work.onRun_port (w : Work) (f : Running → Running) : (w.onRun f).port = w.port := rfl
@[simp] theorem Work.onRun_events (w : Work) (f : Running → Running) : (w.onRun f).events = w.events := rfl
@[simp] theorem Work.onRun_sup (w : Work) (f : Running → Running) : (w.onRun f).sup = w.sup := rfl
@[simp] theorem Work.onRun_backup (w : Work) (f : Running → Running) : (w.onRun f).backup = w.backup := rfl
@[simp] theorem Work.onRun_store (w : Work) (f : Running → Running) : (w.onRun f).store = w.store := rfl
@[simp] theorem Work.onRun_ctxs (w : Work) (f : Running → Running) : (w.onRun f).ctxs = w.ctxs := rfl
@[simp] theorem Work.onRun_link (w : Work) (f : Running → Running) : (w.onRun f).link = w.link := rfl
@[simp] theorem Work.onRun_arb (w : Work) (f : Running → Running) : (w.onRun f).arb = w.arb := rfl
@[simp] theorem Work.onRun_heat (w : Work) (f : Running → Running) : (w.onRun f).heat = w.heat := rfl
@[simp] theorem Work.onRun_sag (w : Work) (f : Running → Running) : (w.onRun f).sag = w.sag := rfl
@[simp] theorem Work.onRun_plan (w : Work) (f : Running → Running) : (w.onRun f).plan = w.plan := rfl
@[simp] theorem Work.onRun_pending (w : Work) (f : Running → Running) : (w.onRun f).pending = w.pending := rfl
@[simp] theorem Work.onRun_gone (w : Work) (f : Running → Running) : (w.onRun f).gone = w.gone := rfl
@[simp] theorem Work.onRun_anyGone (w : Work) (f : Running → Running) : (w.onRun f).anyGone = w.anyGone := rfl
@[simp] theorem Work.onRun_drop (w : Work) (f : Running → Running) : (w.onRun f).drop = w.drop := rfl
@[simp] theorem Work.onRun_room (w : Work) (f : Running → Running) : (w.onRun f).room = w.room := rfl
@[simp] theorem Work.onRun_serve (w : Work) (f : Running → Running) : (w.onRun f).serve = w.serve := rfl
@[simp] theorem Work.onRun_grant (w : Work) (f : Running → Running) : (w.onRun f).grant = w.grant := rfl
@[simp] theorem Work.onRun_post (w : Work) (f : Running → Running) : (w.onRun f).post = w.post := rfl

/-! ### onMove -/

@[simp] theorem Work.onMove_powered (w : Work) (f : MoveData → MoveData) : (w.onMove f).powered = w.powered := rfl
@[simp] theorem Work.onMove_part (w : Work) (f : MoveData → MoveData) : (w.onMove f).part = w.part := rfl
@[simp] theorem Work.onMove_port (w : Work) (f : MoveData → MoveData) : (w.onMove f).port = w.port := rfl
@[simp] theorem Work.onMove_events (w : Work) (f : MoveData → MoveData) : (w.onMove f).events = w.events := rfl
@[simp] theorem Work.onMove_sup (w : Work) (f : MoveData → MoveData) : (w.onMove f).sup = w.sup := rfl
@[simp] theorem Work.onMove_backup (w : Work) (f : MoveData → MoveData) : (w.onMove f).backup = w.backup := rfl
@[simp] theorem Work.onMove_store (w : Work) (f : MoveData → MoveData) : (w.onMove f).store = w.store := rfl
@[simp] theorem Work.onMove_ctxs (w : Work) (f : MoveData → MoveData) : (w.onMove f).ctxs = w.ctxs := rfl
@[simp] theorem Work.onMove_link (w : Work) (f : MoveData → MoveData) : (w.onMove f).link = w.link := rfl
@[simp] theorem Work.onMove_arb (w : Work) (f : MoveData → MoveData) : (w.onMove f).arb = w.arb := rfl
@[simp] theorem Work.onMove_heat (w : Work) (f : MoveData → MoveData) : (w.onMove f).heat = w.heat := rfl
@[simp] theorem Work.onMove_sag (w : Work) (f : MoveData → MoveData) : (w.onMove f).sag = w.sag := rfl
@[simp] theorem Work.onMove_plan (w : Work) (f : MoveData → MoveData) : (w.onMove f).plan = w.plan := rfl
@[simp] theorem Work.onMove_pending (w : Work) (f : MoveData → MoveData) : (w.onMove f).pending = w.pending := rfl
@[simp] theorem Work.onMove_gone (w : Work) (f : MoveData → MoveData) : (w.onMove f).gone = w.gone := rfl
@[simp] theorem Work.onMove_anyGone (w : Work) (f : MoveData → MoveData) : (w.onMove f).anyGone = w.anyGone := rfl
@[simp] theorem Work.onMove_drop (w : Work) (f : MoveData → MoveData) : (w.onMove f).drop = w.drop := rfl
@[simp] theorem Work.onMove_room (w : Work) (f : MoveData → MoveData) : (w.onMove f).room = w.room := rfl
@[simp] theorem Work.onMove_serve (w : Work) (f : MoveData → MoveData) : (w.onMove f).serve = w.serve := rfl
@[simp] theorem Work.onMove_grant (w : Work) (f : MoveData → MoveData) : (w.onMove f).grant = w.grant := rfl
@[simp] theorem Work.onMove_post (w : Work) (f : MoveData → MoveData) : (w.onMove f).post = w.post := rfl

/-! ### onRetire -/

@[simp] theorem Work.onRetire_powered (w : Work) (p : Pocket) (f : Nat → Nat) (b : Bool) : (w.onRetire p f b).powered = w.powered := rfl
@[simp] theorem Work.onRetire_part (w : Work) (p : Pocket) (f : Nat → Nat) (b : Bool) : (w.onRetire p f b).part = w.part := rfl
@[simp] theorem Work.onRetire_port (w : Work) (p : Pocket) (f : Nat → Nat) (b : Bool) : (w.onRetire p f b).port = w.port := rfl
@[simp] theorem Work.onRetire_events (w : Work) (p : Pocket) (f : Nat → Nat) (b : Bool) : (w.onRetire p f b).events = w.events := rfl
@[simp] theorem Work.onRetire_sup (w : Work) (p : Pocket) (f : Nat → Nat) (b : Bool) : (w.onRetire p f b).sup = w.sup := rfl
@[simp] theorem Work.onRetire_backup (w : Work) (p : Pocket) (f : Nat → Nat) (b : Bool) : (w.onRetire p f b).backup = w.backup := rfl
@[simp] theorem Work.onRetire_store (w : Work) (p : Pocket) (f : Nat → Nat) (b : Bool) : (w.onRetire p f b).store = w.store := rfl
@[simp] theorem Work.onRetire_ctxs (w : Work) (p : Pocket) (f : Nat → Nat) (b : Bool) : (w.onRetire p f b).ctxs = w.ctxs := rfl
@[simp] theorem Work.onRetire_link (w : Work) (p : Pocket) (f : Nat → Nat) (b : Bool) : (w.onRetire p f b).link = w.link := rfl
@[simp] theorem Work.onRetire_arb (w : Work) (p : Pocket) (f : Nat → Nat) (b : Bool) : (w.onRetire p f b).arb = w.arb := rfl
@[simp] theorem Work.onRetire_heat (w : Work) (p : Pocket) (f : Nat → Nat) (b : Bool) : (w.onRetire p f b).heat = w.heat := rfl
@[simp] theorem Work.onRetire_sag (w : Work) (p : Pocket) (f : Nat → Nat) (b : Bool) : (w.onRetire p f b).sag = w.sag := rfl
@[simp] theorem Work.onRetire_plan (w : Work) (p : Pocket) (f : Nat → Nat) (b : Bool) : (w.onRetire p f b).plan = w.plan := rfl
@[simp] theorem Work.onRetire_pending (w : Work) (p : Pocket) (f : Nat → Nat) (b : Bool) : (w.onRetire p f b).pending = w.pending := rfl
@[simp] theorem Work.onRetire_gone (w : Work) (p : Pocket) (f : Nat → Nat) (b : Bool) : (w.onRetire p f b).gone = w.gone := rfl
@[simp] theorem Work.onRetire_anyGone (w : Work) (p : Pocket) (f : Nat → Nat) (b : Bool) : (w.onRetire p f b).anyGone = w.anyGone := rfl
@[simp] theorem Work.onRetire_drop (w : Work) (p : Pocket) (f : Nat → Nat) (b : Bool) : (w.onRetire p f b).drop = w.drop := rfl
@[simp] theorem Work.onRetire_room (w : Work) (p : Pocket) (f : Nat → Nat) (b : Bool) : (w.onRetire p f b).room = w.room := rfl
@[simp] theorem Work.onRetire_serve (w : Work) (p : Pocket) (f : Nat → Nat) (b : Bool) : (w.onRetire p f b).serve = w.serve := rfl
@[simp] theorem Work.onRetire_grant (w : Work) (p : Pocket) (f : Nat → Nat) (b : Bool) : (w.onRetire p f b).grant = w.grant := rfl
@[simp] theorem Work.onRetire_post (w : Work) (p : Pocket) (f : Nat → Nat) (b : Bool) : (w.onRetire p f b).post = w.post := rfl

/-! ### charge -/

@[simp] theorem Work.charge_powered (w : Work) : (w.charge).powered = w.powered := rfl
@[simp] theorem Work.charge_part (w : Work) : (w.charge).part = w.part := rfl
@[simp] theorem Work.charge_port (w : Work) : (w.charge).port = w.port := rfl
@[simp] theorem Work.charge_events (w : Work) : (w.charge).events = w.events := rfl
@[simp] theorem Work.charge_backup (w : Work) : (w.charge).backup = w.backup := rfl
@[simp] theorem Work.charge_store (w : Work) : (w.charge).store = w.store := rfl
@[simp] theorem Work.charge_ctl (w : Work) : (w.charge).ctl = w.ctl := rfl
@[simp] theorem Work.charge_ctxs (w : Work) : (w.charge).ctxs = w.ctxs := rfl
@[simp] theorem Work.charge_link (w : Work) : (w.charge).link = w.link := rfl
@[simp] theorem Work.charge_arb (w : Work) : (w.charge).arb = w.arb := rfl
@[simp] theorem Work.charge_heat (w : Work) : (w.charge).heat = w.heat := rfl
@[simp] theorem Work.charge_sag (w : Work) : (w.charge).sag = w.sag := rfl
@[simp] theorem Work.charge_plan (w : Work) : (w.charge).plan = w.plan := rfl
@[simp] theorem Work.charge_pending (w : Work) : (w.charge).pending = w.pending := rfl
@[simp] theorem Work.charge_gone (w : Work) : (w.charge).gone = w.gone := rfl
@[simp] theorem Work.charge_anyGone (w : Work) : (w.charge).anyGone = w.anyGone := rfl
@[simp] theorem Work.charge_drop (w : Work) : (w.charge).drop = w.drop := rfl
@[simp] theorem Work.charge_room (w : Work) : (w.charge).room = w.room := rfl
@[simp] theorem Work.charge_serve (w : Work) : (w.charge).serve = w.serve := rfl
@[simp] theorem Work.charge_grant (w : Work) : (w.charge).grant = w.grant := rfl
@[simp] theorem Work.charge_post (w : Work) : (w.charge).post = w.post := rfl

/-! ### breakSettling -/

@[simp] theorem Work.breakSettling_powered (w : Work) : (w.breakSettling).powered = w.powered := rfl
@[simp] theorem Work.breakSettling_part (w : Work) : (w.breakSettling).part = w.part := rfl
@[simp] theorem Work.breakSettling_port (w : Work) : (w.breakSettling).port = w.port := rfl
@[simp] theorem Work.breakSettling_events (w : Work) : (w.breakSettling).events = w.events := rfl
@[simp] theorem Work.breakSettling_backup (w : Work) : (w.breakSettling).backup = w.backup := rfl
@[simp] theorem Work.breakSettling_store (w : Work) : (w.breakSettling).store = w.store := rfl
@[simp] theorem Work.breakSettling_ctl (w : Work) : (w.breakSettling).ctl = w.ctl := rfl
@[simp] theorem Work.breakSettling_ctxs (w : Work) : (w.breakSettling).ctxs = w.ctxs := rfl
@[simp] theorem Work.breakSettling_link (w : Work) : (w.breakSettling).link = w.link := rfl
@[simp] theorem Work.breakSettling_arb (w : Work) : (w.breakSettling).arb = w.arb := rfl
@[simp] theorem Work.breakSettling_heat (w : Work) : (w.breakSettling).heat = w.heat := rfl
@[simp] theorem Work.breakSettling_sag (w : Work) : (w.breakSettling).sag = w.sag := rfl
@[simp] theorem Work.breakSettling_plan (w : Work) : (w.breakSettling).plan = w.plan := rfl
@[simp] theorem Work.breakSettling_pending (w : Work) : (w.breakSettling).pending = w.pending := rfl
@[simp] theorem Work.breakSettling_gone (w : Work) : (w.breakSettling).gone = w.gone := rfl
@[simp] theorem Work.breakSettling_anyGone (w : Work) : (w.breakSettling).anyGone = w.anyGone := rfl
@[simp] theorem Work.breakSettling_drop (w : Work) : (w.breakSettling).drop = w.drop := rfl
@[simp] theorem Work.breakSettling_room (w : Work) : (w.breakSettling).room = w.room := rfl
@[simp] theorem Work.breakSettling_serve (w : Work) : (w.breakSettling).serve = w.serve := rfl
@[simp] theorem Work.breakSettling_grant (w : Work) : (w.breakSettling).grant = w.grant := rfl
@[simp] theorem Work.breakSettling_post (w : Work) : (w.breakSettling).post = w.post := rfl

/-! ### completePlan -/

@[simp] theorem Work.completePlan_powered (w : Work) : (w.completePlan).powered = w.powered := rfl
@[simp] theorem Work.completePlan_part (w : Work) : (w.completePlan).part = w.part := rfl
@[simp] theorem Work.completePlan_port (w : Work) : (w.completePlan).port = w.port := rfl
@[simp] theorem Work.completePlan_events (w : Work) : (w.completePlan).events = w.events := rfl
@[simp] theorem Work.completePlan_sup (w : Work) : (w.completePlan).sup = w.sup := rfl
@[simp] theorem Work.completePlan_store (w : Work) : (w.completePlan).store = w.store := rfl
@[simp] theorem Work.completePlan_ctl (w : Work) : (w.completePlan).ctl = w.ctl := rfl
@[simp] theorem Work.completePlan_ctxs (w : Work) : (w.completePlan).ctxs = w.ctxs := rfl
@[simp] theorem Work.completePlan_link (w : Work) : (w.completePlan).link = w.link := rfl
@[simp] theorem Work.completePlan_arb (w : Work) : (w.completePlan).arb = w.arb := rfl
@[simp] theorem Work.completePlan_heat (w : Work) : (w.completePlan).heat = w.heat := rfl
@[simp] theorem Work.completePlan_sag (w : Work) : (w.completePlan).sag = w.sag := rfl
@[simp] theorem Work.completePlan_plan (w : Work) : (w.completePlan).plan = w.plan := rfl
@[simp] theorem Work.completePlan_pending (w : Work) : (w.completePlan).pending = w.pending := rfl
@[simp] theorem Work.completePlan_gone (w : Work) : (w.completePlan).gone = w.gone := rfl
@[simp] theorem Work.completePlan_anyGone (w : Work) : (w.completePlan).anyGone = w.anyGone := rfl
@[simp] theorem Work.completePlan_drop (w : Work) : (w.completePlan).drop = w.drop := rfl
@[simp] theorem Work.completePlan_room (w : Work) : (w.completePlan).room = w.room := rfl
@[simp] theorem Work.completePlan_serve (w : Work) : (w.completePlan).serve = w.serve := rfl
@[simp] theorem Work.completePlan_grant (w : Work) : (w.completePlan).grant = w.grant := rfl
@[simp] theorem Work.completePlan_post (w : Work) : (w.completePlan).post = w.post := rfl

/-! ### shiftStatus -/

@[simp] theorem Work.shiftStatus_powered (w : Work) : (w.shiftStatus).powered = w.powered := rfl
@[simp] theorem Work.shiftStatus_part (w : Work) : (w.shiftStatus).part = w.part := rfl
@[simp] theorem Work.shiftStatus_events (w : Work) : (w.shiftStatus).events = w.events := rfl
@[simp] theorem Work.shiftStatus_sup (w : Work) : (w.shiftStatus).sup = w.sup := rfl
@[simp] theorem Work.shiftStatus_backup (w : Work) : (w.shiftStatus).backup = w.backup := rfl
@[simp] theorem Work.shiftStatus_store (w : Work) : (w.shiftStatus).store = w.store := rfl
@[simp] theorem Work.shiftStatus_ctl (w : Work) : (w.shiftStatus).ctl = w.ctl := rfl
@[simp] theorem Work.shiftStatus_ctxs (w : Work) : (w.shiftStatus).ctxs = w.ctxs := rfl
@[simp] theorem Work.shiftStatus_link (w : Work) : (w.shiftStatus).link = w.link := rfl
@[simp] theorem Work.shiftStatus_arb (w : Work) : (w.shiftStatus).arb = w.arb := rfl
@[simp] theorem Work.shiftStatus_heat (w : Work) : (w.shiftStatus).heat = w.heat := rfl
@[simp] theorem Work.shiftStatus_sag (w : Work) : (w.shiftStatus).sag = w.sag := rfl
@[simp] theorem Work.shiftStatus_plan (w : Work) : (w.shiftStatus).plan = w.plan := rfl
@[simp] theorem Work.shiftStatus_pending (w : Work) : (w.shiftStatus).pending = w.pending := rfl
@[simp] theorem Work.shiftStatus_gone (w : Work) : (w.shiftStatus).gone = w.gone := rfl
@[simp] theorem Work.shiftStatus_anyGone (w : Work) : (w.shiftStatus).anyGone = w.anyGone := rfl
@[simp] theorem Work.shiftStatus_drop (w : Work) : (w.shiftStatus).drop = w.drop := rfl
@[simp] theorem Work.shiftStatus_room (w : Work) : (w.shiftStatus).room = w.room := rfl
@[simp] theorem Work.shiftStatus_serve (w : Work) : (w.shiftStatus).serve = w.serve := rfl
@[simp] theorem Work.shiftStatus_grant (w : Work) : (w.shiftStatus).grant = w.grant := rfl
@[simp] theorem Work.shiftStatus_post (w : Work) : (w.shiftStatus).post = w.post := rfl

/-! ### dropRequest -/

@[simp] theorem Work.dropRequest_powered (w : Work) : (w.dropRequest).powered = w.powered := rfl
@[simp] theorem Work.dropRequest_part (w : Work) : (w.dropRequest).part = w.part := rfl
@[simp] theorem Work.dropRequest_events (w : Work) : (w.dropRequest).events = w.events := rfl
@[simp] theorem Work.dropRequest_sup (w : Work) : (w.dropRequest).sup = w.sup := rfl
@[simp] theorem Work.dropRequest_backup (w : Work) : (w.dropRequest).backup = w.backup := rfl
@[simp] theorem Work.dropRequest_store (w : Work) : (w.dropRequest).store = w.store := rfl
@[simp] theorem Work.dropRequest_ctl (w : Work) : (w.dropRequest).ctl = w.ctl := rfl
@[simp] theorem Work.dropRequest_ctxs (w : Work) : (w.dropRequest).ctxs = w.ctxs := rfl
@[simp] theorem Work.dropRequest_link (w : Work) : (w.dropRequest).link = w.link := rfl
@[simp] theorem Work.dropRequest_arb (w : Work) : (w.dropRequest).arb = w.arb := rfl
@[simp] theorem Work.dropRequest_heat (w : Work) : (w.dropRequest).heat = w.heat := rfl
@[simp] theorem Work.dropRequest_sag (w : Work) : (w.dropRequest).sag = w.sag := rfl
@[simp] theorem Work.dropRequest_plan (w : Work) : (w.dropRequest).plan = w.plan := rfl
@[simp] theorem Work.dropRequest_pending (w : Work) : (w.dropRequest).pending = w.pending := rfl
@[simp] theorem Work.dropRequest_gone (w : Work) : (w.dropRequest).gone = w.gone := rfl
@[simp] theorem Work.dropRequest_anyGone (w : Work) : (w.dropRequest).anyGone = w.anyGone := rfl
@[simp] theorem Work.dropRequest_drop (w : Work) : (w.dropRequest).drop = w.drop := rfl
@[simp] theorem Work.dropRequest_room (w : Work) : (w.dropRequest).room = w.room := rfl
@[simp] theorem Work.dropRequest_serve (w : Work) : (w.dropRequest).serve = w.serve := rfl
@[simp] theorem Work.dropRequest_grant (w : Work) : (w.dropRequest).grant = w.grant := rfl
@[simp] theorem Work.dropRequest_post (w : Work) : (w.dropRequest).post = w.post := rfl

/-! ### takeRequest -/

@[simp] theorem Work.takeRequest_powered (w : Work) (r : HostReq) : (w.takeRequest r).powered = w.powered := rfl
@[simp] theorem Work.takeRequest_part (w : Work) (r : HostReq) : (w.takeRequest r).part = w.part := rfl
@[simp] theorem Work.takeRequest_events (w : Work) (r : HostReq) : (w.takeRequest r).events = w.events := rfl
@[simp] theorem Work.takeRequest_sup (w : Work) (r : HostReq) : (w.takeRequest r).sup = w.sup := rfl
@[simp] theorem Work.takeRequest_backup (w : Work) (r : HostReq) : (w.takeRequest r).backup = w.backup := rfl
@[simp] theorem Work.takeRequest_store (w : Work) (r : HostReq) : (w.takeRequest r).store = w.store := rfl
@[simp] theorem Work.takeRequest_ctl (w : Work) (r : HostReq) : (w.takeRequest r).ctl = w.ctl := rfl
@[simp] theorem Work.takeRequest_ctxs (w : Work) (r : HostReq) : (w.takeRequest r).ctxs = w.ctxs := rfl
@[simp] theorem Work.takeRequest_link (w : Work) (r : HostReq) : (w.takeRequest r).link = w.link := rfl
@[simp] theorem Work.takeRequest_arb (w : Work) (r : HostReq) : (w.takeRequest r).arb = w.arb := rfl
@[simp] theorem Work.takeRequest_heat (w : Work) (r : HostReq) : (w.takeRequest r).heat = w.heat := rfl
@[simp] theorem Work.takeRequest_sag (w : Work) (r : HostReq) : (w.takeRequest r).sag = w.sag := rfl
@[simp] theorem Work.takeRequest_plan (w : Work) (r : HostReq) : (w.takeRequest r).plan = w.plan := rfl
@[simp] theorem Work.takeRequest_pending (w : Work) (r : HostReq) : (w.takeRequest r).pending = w.pending := rfl
@[simp] theorem Work.takeRequest_gone (w : Work) (r : HostReq) : (w.takeRequest r).gone = w.gone := rfl
@[simp] theorem Work.takeRequest_anyGone (w : Work) (r : HostReq) : (w.takeRequest r).anyGone = w.anyGone := rfl
@[simp] theorem Work.takeRequest_drop (w : Work) (r : HostReq) : (w.takeRequest r).drop = w.drop := rfl
@[simp] theorem Work.takeRequest_room (w : Work) (r : HostReq) : (w.takeRequest r).room = w.room := rfl
@[simp] theorem Work.takeRequest_serve (w : Work) (r : HostReq) : (w.takeRequest r).serve = w.serve := rfl
@[simp] theorem Work.takeRequest_grant (w : Work) (r : HostReq) : (w.takeRequest r).grant = w.grant := rfl
@[simp] theorem Work.takeRequest_post (w : Work) (r : HostReq) : (w.takeRequest r).post = w.post := rfl

/-! ### fetchFrame -/

@[simp] theorem Work.fetchFrame_powered (w : Work) (n : Nat) : (w.fetchFrame n).powered = w.powered := rfl
@[simp] theorem Work.fetchFrame_part (w : Work) (n : Nat) : (w.fetchFrame n).part = w.part := rfl
@[simp] theorem Work.fetchFrame_events (w : Work) (n : Nat) : (w.fetchFrame n).events = w.events := rfl
@[simp] theorem Work.fetchFrame_sup (w : Work) (n : Nat) : (w.fetchFrame n).sup = w.sup := rfl
@[simp] theorem Work.fetchFrame_backup (w : Work) (n : Nat) : (w.fetchFrame n).backup = w.backup := rfl
@[simp] theorem Work.fetchFrame_store (w : Work) (n : Nat) : (w.fetchFrame n).store = w.store := rfl
@[simp] theorem Work.fetchFrame_ctl (w : Work) (n : Nat) : (w.fetchFrame n).ctl = w.ctl := rfl
@[simp] theorem Work.fetchFrame_ctxs (w : Work) (n : Nat) : (w.fetchFrame n).ctxs = w.ctxs := rfl
@[simp] theorem Work.fetchFrame_link (w : Work) (n : Nat) : (w.fetchFrame n).link = w.link := rfl
@[simp] theorem Work.fetchFrame_arb (w : Work) (n : Nat) : (w.fetchFrame n).arb = w.arb := rfl
@[simp] theorem Work.fetchFrame_heat (w : Work) (n : Nat) : (w.fetchFrame n).heat = w.heat := rfl
@[simp] theorem Work.fetchFrame_sag (w : Work) (n : Nat) : (w.fetchFrame n).sag = w.sag := rfl
@[simp] theorem Work.fetchFrame_plan (w : Work) (n : Nat) : (w.fetchFrame n).plan = w.plan := rfl
@[simp] theorem Work.fetchFrame_pending (w : Work) (n : Nat) : (w.fetchFrame n).pending = w.pending := rfl
@[simp] theorem Work.fetchFrame_gone (w : Work) (n : Nat) : (w.fetchFrame n).gone = w.gone := rfl
@[simp] theorem Work.fetchFrame_anyGone (w : Work) (n : Nat) : (w.fetchFrame n).anyGone = w.anyGone := rfl
@[simp] theorem Work.fetchFrame_drop (w : Work) (n : Nat) : (w.fetchFrame n).drop = w.drop := rfl
@[simp] theorem Work.fetchFrame_room (w : Work) (n : Nat) : (w.fetchFrame n).room = w.room := rfl
@[simp] theorem Work.fetchFrame_serve (w : Work) (n : Nat) : (w.fetchFrame n).serve = w.serve := rfl
@[simp] theorem Work.fetchFrame_grant (w : Work) (n : Nat) : (w.fetchFrame n).grant = w.grant := rfl
@[simp] theorem Work.fetchFrame_post (w : Work) (n : Nat) : (w.fetchFrame n).post = w.post := rfl

/-! ### startWindow -/

@[simp] theorem Work.startWindow_powered (w : Work) (p : Pocket) : (w.startWindow p).powered = w.powered := rfl
@[simp] theorem Work.startWindow_part (w : Work) (p : Pocket) : (w.startWindow p).part = w.part := rfl
@[simp] theorem Work.startWindow_port (w : Work) (p : Pocket) : (w.startWindow p).port = w.port := rfl
@[simp] theorem Work.startWindow_events (w : Work) (p : Pocket) : (w.startWindow p).events = w.events := rfl
@[simp] theorem Work.startWindow_sup (w : Work) (p : Pocket) : (w.startWindow p).sup = w.sup := rfl
@[simp] theorem Work.startWindow_backup (w : Work) (p : Pocket) : (w.startWindow p).backup = w.backup := rfl
@[simp] theorem Work.startWindow_store (w : Work) (p : Pocket) : (w.startWindow p).store = w.store := rfl
@[simp] theorem Work.startWindow_ctl (w : Work) (p : Pocket) : (w.startWindow p).ctl = w.ctl := rfl
@[simp] theorem Work.startWindow_ctxs (w : Work) (p : Pocket) : (w.startWindow p).ctxs = w.ctxs := rfl
@[simp] theorem Work.startWindow_link (w : Work) (p : Pocket) : (w.startWindow p).link = w.link := rfl
@[simp] theorem Work.startWindow_heat (w : Work) (p : Pocket) : (w.startWindow p).heat = w.heat := rfl
@[simp] theorem Work.startWindow_sag (w : Work) (p : Pocket) : (w.startWindow p).sag = w.sag := rfl
@[simp] theorem Work.startWindow_plan (w : Work) (p : Pocket) : (w.startWindow p).plan = w.plan := rfl
@[simp] theorem Work.startWindow_pending (w : Work) (p : Pocket) : (w.startWindow p).pending = w.pending := rfl
@[simp] theorem Work.startWindow_gone (w : Work) (p : Pocket) : (w.startWindow p).gone = w.gone := rfl
@[simp] theorem Work.startWindow_anyGone (w : Work) (p : Pocket) : (w.startWindow p).anyGone = w.anyGone := rfl
@[simp] theorem Work.startWindow_drop (w : Work) (p : Pocket) : (w.startWindow p).drop = w.drop := rfl
@[simp] theorem Work.startWindow_room (w : Work) (p : Pocket) : (w.startWindow p).room = w.room := rfl
@[simp] theorem Work.startWindow_serve (w : Work) (p : Pocket) : (w.startWindow p).serve = w.serve := rfl
@[simp] theorem Work.startWindow_grant (w : Work) (p : Pocket) : (w.startWindow p).grant = w.grant := rfl
@[simp] theorem Work.startWindow_post (w : Work) (p : Pocket) : (w.startWindow p).post = w.post := rfl

/-! ### Reading what was written -/

@[simp] theorem upd_self {α : Type} {n : Nat} (v : Vector α n) (p : Fin n) (x : α) : (upd v p x)[p] = x := by simp [upd]

theorem upd_other {α : Type} {n : Nat} (v : Vector α n) {p q : Fin n} (x : α) (h : q ≠ p) : (upd v p x)[q] = v[q] := by
  have : p.val ≠ q.val := fun e => h (Fin.ext e.symm)
  simp [upd, this]

@[simp] theorem Work.setCtx_self (w : Work) (p : Pocket) (c : Option Context) : (w.setCtx p c).ctx p = c := upd_self _ _ _

theorem Work.setCtx_other (w : Work) {p q : Pocket} (c : Option Context) (h : q ≠ p) : (w.setCtx p c).ctx q = w.ctx q :=
  upd_other _ _ h

@[simp] theorem Work.onLink_self (w : Work) (p : Pocket) (f : PocketLink → PocketLink) :
    (w.onLink p f).pocketLink p = f (w.pocketLink p) := upd_self _ _ _

theorem Work.onLink_other (w : Work) {p q : Pocket} (f : PocketLink → PocketLink) (h : q ≠ p) :
    (w.onLink p f).pocketLink q = w.pocketLink q := upd_other _ _ h

@[simp] theorem Work.setRequest_self (w : Work) (p : Pocket) (x : Option Nat) : (w.setRequest p x).request p = x :=
  upd_self _ _ _

theorem Work.setRequest_other (w : Work) {p q : Pocket} (x : Option Nat) (h : q ≠ p) :
    (w.setRequest p x).request q = w.request q := upd_other _ _ h

/-- What a command owes is no part of the state. -/
@[simp] theorem Work.debtFree_toState (w : Work) : w.debtFree.toState = w.toState := rfl

@[simp] theorem Work.setQueue_queue (w : Work) (q : List Entry) : (w.setQueue q).link.queue = q := rfl

@[simp] theorem Work.enqueue_queue (w : Work) (op : StoreOp) : (w.enqueue op).ctl.queue = w.ctl.queue ++ [op] := rfl

@[simp] theorem Work.respond_response (w : Work) (r : Result) (b : List Byte) :
    (w.respond r b).port.response = some ⟨r, b⟩ := rfl

@[simp] theorem Work.respond_state (w : Work) (r : Result) (b : List Byte) : (w.respond r b).port.state = .ready := rfl

end Sys2Proof.Machine
end

