-- ==== Sys2Proof/Laws/Views.lean ====
section
/-! SUPPORT. What the operations of the link, the heat budget unit and the arbiter leave unchanged, as equations between
views (Sys2Proof/Safety.lean), and the laws of a command's end. -/

namespace Sys2Proof.Machine

/-! ### From one view to the next -/

theorem State.offGrant_of_offLink {a b : State} (h : a.offLink = b.offLink) : a.offGrant = b.offGrant := by
  have hc : a.ctxs = b.ctxs := (congrArg State.ctxs h :)
  simp only [State.offGrant, h, hc]

theorem State.offRecord_of_offGrant {a b : State} (p : Pocket) (h : a.offGrant = b.offGrant) :
    a.offRecord p = b.offRecord p := congrArg (State.blankRecord · p) h

theorem State.offRecord_of_offLink {a b : State} (p : Pocket) (h : a.offLink = b.offLink) :
    a.offRecord p = b.offRecord p := State.offRecord_of_offGrant p (State.offGrant_of_offLink h)

/-- A view of a fold is that of its start when no step changes it. -/
theorem foldl_view {α β : Type} (v : State → β) (f : Work → α → Work) (h : ∀ w a, v (f w a).toState = v w.toState) :
    ∀ (l : List α) (w : Work), v (l.foldl f w).toState = v w.toState
  | [], _ => rfl
  | a :: l, w => (foldl_view v f h l (f w a)).trans (h w a)

/-! ### What the link's operations leave -/

@[simp] theorem Work.setQueue_offLink (w : Work) (q : List Entry) : (w.setQueue q).offLink = w.offLink := rfl
@[simp] theorem Work.onLink_offLink (w : Work) (p : Pocket) (f : PocketLink → PocketLink) :
    (w.onLink p f).offLink = w.offLink := rfl
@[simp] theorem Work.believeMotor_offLink (w : Work) (p : Pocket) (b : Bool) : (w.believeMotor p b).offLink = w.offLink := rfl
@[simp] theorem Work.believeHeat_offLink (w : Work) (p : Pocket) (x : Option Nat) : (w.believeHeat p x).offLink = w.offLink := rfl
@[simp] theorem Work.believeAllSafe_offLink (w : Work) : w.believeAllSafe.offLink = w.offLink := rfl
@[simp] theorem Work.setRequest_offLink (w : Work) (p : Pocket) (x : Option Nat) : (w.setRequest p x).offLink = w.offLink := rfl
@[simp] theorem Work.onSlot_offLink (w : Work) (p : Pocket) (f : Slot → Slot) : (w.onSlot p f).offLink = w.offLink := rfl
@[simp] theorem Work.releaseSlot_offLink (w : Work) (p : Pocket) : (w.releaseSlot p).offLink = w.offLink := rfl
@[simp] theorem Work.removeRequest_offLink (w : Work) (p : Pocket) : (w.removeRequest p).offLink = w.offLink := rfl
@[simp] theorem Work.startWindow_offLink (w : Work) (p : Pocket) : (w.startWindow p).offLink = w.offLink := rfl
@[simp] theorem Work.enqueue_offLink (w : Work) (op : StoreOp) : (w.enqueue op).offLink = w.offLink := rfl
@[simp] theorem Work.sendEntry_offLink (w : Work) (f : Entry → Bool) (e : Entry) : (w.sendEntry f e).offLink = w.offLink := rfl
@[simp] theorem Work.resend_offLink (w : Work) : w.resend.offLink = w.offLink := rfl
@[simp] theorem Work.waitRetry_offLink (w : Work) (n : Nat) : (w.waitRetry n).offLink = w.offLink := rfl

@[simp] theorem Work.setWaitList_offLink (w : Work) (x : SupplyPhase) (l : List Pocket) :
    (w.setWaitList x l).offLink = w.offLink := by cases x <;> rfl

@[simp] theorem Work.demandRead_offLink (w : Work) (p : Pocket) (why : ReadPurpose) :
    (w.demandRead p why).offLink = w.offLink := by unfold Work.demandRead; split <;> rfl

@[simp] theorem Work.releaseReservation_offLink (w : Work) (p : Pocket) : (w.releaseReservation p).offLink = w.offLink := by
  unfold Work.releaseReservation; split <;> rfl

@[simp] theorem Work.leaveWaitList_offLink (w : Work) (p : Pocket) : (w.leaveWaitList p).offLink = w.offLink := by
  unfold Work.leaveWaitList
  dsimp only
  split
  · exact Work.setWaitList_offLink w _ _
  · rfl

@[simp] theorem Work.releaseHeat_offLink (w : Work) (p : Pocket) : (w.releaseHeat p).offLink = w.offLink := by
  simp [Work.releaseHeat]

@[simp] theorem Work.makeRequest_offLink (w : Work) (p : Pocket) (n : Nat) : (w.makeRequest p n).offLink = w.offLink := by
  unfold Work.makeRequest
  split
  · rfl
  · split
    · split <;> rfl
    · rfl

@[simp] theorem Work.clearLatchSeen_offLink (es : List Entry) : ∀ w : Work, (w.clearLatchSeen es).offLink = w.offLink := by
  induction es with
  | nil => intro w; rfl
  | cons e r ih => intro w; unfold Work.clearLatchSeen; split <;> simp [ih]

/-- The work without what entries that leave the link queue may change: the link, the planner's open window and what the
command owes for them. -/
def Work.offQueue (w : Work) : Work :=
  { w with link := LinkCtl.reset, plan := { w.plan with window := none }, gone := 0, anyGone := false, drop := false, room := none }

theorem Work.offLink_of_offQueue {a b : Work} (h : a.offQueue = b.offQueue) : a.offLink = b.offLink := by
  have h' : a.offQueue.offLink = b.offQueue.offLink := congrArg (fun w : Work => w.offLink) h
  exact h'

theorem foldl_offQueue (f : Work → Pocket → Work) (h : ∀ w p, (f w p).offQueue = w.offQueue) :
    ∀ (l : List Pocket) (w : Work), (l.foldl f w).offQueue = w.offQueue
  | [], _ => rfl
  | a :: l, w => (foldl_offQueue f h l (f w a)).trans (h w a)

@[simp] theorem Work.setQueue_offQueue (w : Work) (q : List Entry) : (w.setQueue q).offQueue = w.offQueue := rfl
@[simp] theorem Work.onLink_offQueue (w : Work) (p : Pocket) (f : PocketLink → PocketLink) :
    (w.onLink p f).offQueue = w.offQueue := rfl
@[simp] theorem Work.believeAllSafe_offQueue (w : Work) : w.believeAllSafe.offQueue = w.offQueue := rfl
@[simp] theorem Work.sendEntry_offQueue (w : Work) (g : Entry → Bool) (e : Entry) : (w.sendEntry g e).offQueue = w.offQueue := rfl

@[simp] theorem Work.clearLatchSeen_offQueue (es : List Entry) : ∀ w : Work, (w.clearLatchSeen es).offQueue = w.offQueue := by
  induction es with
  | nil => intro w; rfl
  | cons e r ih => intro w; unfold Work.clearLatchSeen; split <;> simp [ih]

/-- **What entries that leave the queue can change.** -/
@[simp] theorem Work.leave_offQueue (w : Work) (left stay : List Entry) : (w.leave left stay).offQueue = w.offQueue := by
  unfold Work.leave
  dsimp only
  split
  · rfl
  · rw [Work.clearLatchSeen_offQueue]; rfl

@[simp] theorem Work.dropEntries_offQueue (w : Work) (f : Entry → Bool) : (w.dropEntries f).offQueue = w.offQueue :=
  Work.leave_offQueue w _ _

@[simp] theorem Work.dropNewest_offQueue (w : Work) (f : Entry → Bool) : (w.dropNewest f).offQueue = w.offQueue :=
  Work.leave_offQueue w _ _

@[simp] theorem Work.oweProbe_offQueue (w : Work) (e : Option Entry) : (w.oweProbe e).offQueue = w.offQueue := by
  unfold Work.oweProbe
  split
  · split <;> rfl
  · rfl

@[simp] theorem Work.makeRoom_offQueue (w : Work) : w.makeRoom.offQueue = w.offQueue := by
  unfold Work.makeRoom
  split
  · rfl
  · split <;> simp

@[simp] theorem Work.putSafe_offQueue (w : Work) (p : Pocket) : (w.putSafe p).offQueue = w.offQueue := by
  unfold Work.putSafe
  dsimp only
  repeat' split
  all_goals simp

@[simp] theorem Work.admitSafes_offQueue (w : Work) : w.admitSafes.offQueue = w.offQueue := by
  unfold Work.admitSafes
  split
  · exact foldl_offQueue _ (fun w p => by split <;> simp) _ w
  · rfl

@[simp] theorem Work.removeEntries_offQueue (w : Work) (f : Entry → Bool) : (w.removeEntries f).offQueue = w.offQueue := by
  unfold Work.removeEntries; split <;> simp

@[simp] theorem Work.postSafe_offQueue (w : Work) (p : Pocket) : (w.postSafe p).offQueue = w.offQueue := by
  simp [Work.postSafe]

@[simp] theorem Work.sendBroadcast_offQueue (w : Work) : w.sendBroadcast.offQueue = w.offQueue := by
  unfold Work.sendBroadcast; split <;> simp

@[simp] theorem Work.broadcastSafe_offQueue (w : Work) : w.broadcastSafe.offQueue = w.offQueue := by
  simp [Work.broadcastSafe]

@[simp] theorem Work.dropEntries_offLink (w : Work) (f : Entry → Bool) : (w.dropEntries f).offLink = w.offLink :=
  Work.offLink_of_offQueue (w.dropEntries_offQueue f)

@[simp] theorem Work.removeEntries_offLink (w : Work) (f : Entry → Bool) : (w.removeEntries f).offLink = w.offLink :=
  Work.offLink_of_offQueue (w.removeEntries_offQueue f)

@[simp] theorem Work.postSafe_offLink (w : Work) (p : Pocket) : (w.postSafe p).offLink = w.offLink :=
  Work.offLink_of_offQueue (w.postSafe_offQueue p)

@[simp] theorem Work.sendBroadcast_offLink (w : Work) : w.sendBroadcast.offLink = w.offLink :=
  Work.offLink_of_offQueue w.sendBroadcast_offQueue

@[simp] theorem Work.broadcastSafe_offLink (w : Work) : w.broadcastSafe.offLink = w.offLink :=
  Work.offLink_of_offQueue w.broadcastSafe_offQueue

@[simp] theorem Work.join_offLink (w : Work) (p : Pocket) (k : CommandKind) : (w.join p k).offLink = w.offLink := by
  unfold Work.join; split <;> simp

@[simp] theorem Work.postStop_offLink (w : Work) (p : Pocket) : (w.postStop p).offLink = w.offLink := by
  unfold Work.postStop; split <;> simp

@[simp] theorem Work.postHeatOff_offLink (w : Work) (p : Pocket) : (w.postHeatOff p).offLink = w.offLink := by
  unfold Work.postHeatOff; split <;> simp

@[simp] theorem Work.postHeatOn_offLink (w : Work) (p : Pocket) : (w.postHeatOn p).offLink = w.offLink := by
  unfold Work.postHeatOn; split <;> simp

@[simp] theorem Work.postRun_offLink (w : Work) (p : Pocket) : (w.postRun p).offLink = w.offLink := by
  unfold Work.postRun; split <;> simp

@[simp] theorem Work.postPoll_offLink (w : Work) (p : Pocket) : (w.postPoll p).offLink = w.offLink := by
  unfold Work.postPoll; split <;> simp

@[simp] theorem Work.postClearDoor_offLink (w : Work) (p : Pocket) : (w.postClearDoor p).offLink = w.offLink := by
  unfold Work.postClearDoor; split <;> simp

@[simp] theorem Work.postProbe_offLink (w : Work) (p : Pocket) : (w.postProbe p).offLink = w.offLink := by
  unfold Work.postProbe; split <;> simp

@[simp] theorem Work.endExchange_offLink (w : Work) : w.endExchange.offLink = w.offLink := Work.removeEntries_offLink w _

@[simp] theorem Work.convergeMotor_offLink (w : Work) (p : Pocket) : (w.convergeMotor p).offLink = w.offLink := by
  unfold Work.convergeMotor
  repeat' split
  all_goals simp

@[simp] theorem Work.convergeLevel_offLink (w : Work) (p : Pocket) : (w.convergeLevel p).offLink = w.offLink := by
  unfold Work.convergeLevel
  repeat' split
  all_goals simp

@[simp] theorem Work.convergeHeat_offLink (w : Work) (p : Pocket) : (w.convergeHeat p).offLink = w.offLink := by
  unfold Work.convergeHeat
  repeat' split
  all_goals simp

@[simp] theorem Work.convergeOne_offLink (w : Work) (p : Pocket) : (w.convergeOne p).offLink = w.offLink := by
  unfold Work.convergeOne; split <;> simp

@[simp] theorem Work.admitProbes_offLink (w : Work) : w.admitProbes.offLink = w.offLink := by
  unfold Work.admitProbes
  split
  · exact foldl_view State.offLink _ (fun w p => by split <;> simp) _ w
  · rfl

@[simp] theorem Work.convergeWaiting_offLink (w : Work) (m : Mask) (f : Pocket → Bool) :
    (w.convergeWaiting m f).offLink = w.offLink :=
  foldl_view State.offLink _ (fun w p => by split <;> simp) _ w

@[simp] theorem Work.admitHeld_offLink (w : Work) : w.admitHeld.offLink = w.offLink := by
  unfold Work.admitHeld
  split
  · rw [Work.admitProbes_offLink, Work.convergeWaiting_offLink]
  · rfl

@[simp] theorem Work.admitHeldBefore_offLink (w : Work) (p : Pocket) : (w.admitHeldBefore p).offLink = w.offLink := by
  unfold Work.admitHeldBefore
  split
  · split
    · exact Work.convergeWaiting_offLink { w with room := none } _ _
    · simp
  · rfl

/-- Convergence changes the link, the reservations and the operation queue alone (R96). -/
@[simp] theorem Work.converge_offLink (w : Work) (p : Pocket) : (w.converge p).offLink = w.offLink := by
  simp [Work.converge]

@[simp] theorem Work.endAuthority_offLink (w : Work) (p : Pocket) : (w.endAuthority p).offLink = w.offLink := by
  unfold Work.endAuthority; split <;> simp

@[simp] theorem Work.rederive_offLink (w : Work) (p : Pocket) : (w.rederive p).offLink = w.offLink := by
  unfold Work.rederive; dsimp only; split <;> simp

@[simp] theorem Work.reserve_offLink (w : Work) (p : Pocket) : (w.reserve p).offLink = w.offLink :=
  Work.converge_offLink _ p

@[simp] theorem Work.servePhase_offLink (x : SupplyPhase) : ∀ (n : Nat) (w : Work), (Work.servePhase x n w).offLink = w.offLink
  | 0, _ => rfl
  | n + 1, w => by
    unfold Work.servePhase
    split
    · split
      · rw [Work.servePhase_offLink x n]; simp
      · rfl
    · rfl

@[simp] theorem Work.serveLists_offLink (w : Work) : w.serveLists.offLink = w.offLink := by
  unfold Work.serveLists; split <;> simp

/-! ### What leaves the link queue -/

@[simp] theorem Work.dropEntries_arb (w : Work) (g : Entry → Bool) : (w.dropEntries g).arb = w.arb :=
  (congrArg (fun w : Work => w.arb) (w.dropEntries_offQueue g) :)
@[simp] theorem Work.removeEntries_arb (w : Work) (g : Entry → Bool) : (w.removeEntries g).arb = w.arb :=
  (congrArg (fun w : Work => w.arb) (w.removeEntries_offQueue g) :)
@[simp] theorem Work.postSafe_arb (w : Work) (p : Pocket) : (w.postSafe p).arb = w.arb :=
  (congrArg (fun w : Work => w.arb) (w.postSafe_offQueue p) :)
@[simp] theorem Work.sendBroadcast_arb (w : Work) : (w.sendBroadcast).arb = w.arb :=
  (congrArg (fun w : Work => w.arb) (w.sendBroadcast_offQueue) :)
@[simp] theorem Work.broadcastSafe_arb (w : Work) : (w.broadcastSafe).arb = w.arb :=
  (congrArg (fun w : Work => w.arb) (w.broadcastSafe_offQueue) :)

@[simp] theorem Work.dropEntries_heat (w : Work) (g : Entry → Bool) : (w.dropEntries g).heat = w.heat :=
  (congrArg (fun w : Work => w.heat) (w.dropEntries_offQueue g) :)
@[simp] theorem Work.removeEntries_heat (w : Work) (g : Entry → Bool) : (w.removeEntries g).heat = w.heat :=
  (congrArg (fun w : Work => w.heat) (w.removeEntries_offQueue g) :)
@[simp] theorem Work.postSafe_heat (w : Work) (p : Pocket) : (w.postSafe p).heat = w.heat :=
  (congrArg (fun w : Work => w.heat) (w.postSafe_offQueue p) :)
@[simp] theorem Work.sendBroadcast_heat (w : Work) : (w.sendBroadcast).heat = w.heat :=
  (congrArg (fun w : Work => w.heat) (w.sendBroadcast_offQueue) :)
@[simp] theorem Work.broadcastSafe_heat (w : Work) : (w.broadcastSafe).heat = w.heat :=
  (congrArg (fun w : Work => w.heat) (w.broadcastSafe_offQueue) :)

@[simp] theorem Work.dropEntries_ctl (w : Work) (g : Entry → Bool) : (w.dropEntries g).ctl = w.ctl :=
  (congrArg (fun w : Work => w.ctl) (w.dropEntries_offQueue g) :)
@[simp] theorem Work.removeEntries_ctl (w : Work) (g : Entry → Bool) : (w.removeEntries g).ctl = w.ctl :=
  (congrArg (fun w : Work => w.ctl) (w.removeEntries_offQueue g) :)
@[simp] theorem Work.postSafe_ctl (w : Work) (p : Pocket) : (w.postSafe p).ctl = w.ctl :=
  (congrArg (fun w : Work => w.ctl) (w.postSafe_offQueue p) :)
@[simp] theorem Work.sendBroadcast_ctl (w : Work) : (w.sendBroadcast).ctl = w.ctl :=
  (congrArg (fun w : Work => w.ctl) (w.sendBroadcast_offQueue) :)
@[simp] theorem Work.broadcastSafe_ctl (w : Work) : (w.broadcastSafe).ctl = w.ctl :=
  (congrArg (fun w : Work => w.ctl) (w.broadcastSafe_offQueue) :)

@[simp] theorem Work.dropEntries_serve (w : Work) (g : Entry → Bool) : (w.dropEntries g).serve = w.serve :=
  (congrArg (fun w : Work => w.serve) (w.dropEntries_offQueue g) :)
@[simp] theorem Work.removeEntries_serve (w : Work) (g : Entry → Bool) : (w.removeEntries g).serve = w.serve :=
  (congrArg (fun w : Work => w.serve) (w.removeEntries_offQueue g) :)
@[simp] theorem Work.postSafe_serve (w : Work) (p : Pocket) : (w.postSafe p).serve = w.serve :=
  (congrArg (fun w : Work => w.serve) (w.postSafe_offQueue p) :)
@[simp] theorem Work.sendBroadcast_serve (w : Work) : (w.sendBroadcast).serve = w.serve :=
  (congrArg (fun w : Work => w.serve) (w.sendBroadcast_offQueue) :)
@[simp] theorem Work.broadcastSafe_serve (w : Work) : (w.broadcastSafe).serve = w.serve :=
  (congrArg (fun w : Work => w.serve) (w.broadcastSafe_offQueue) :)

@[simp] theorem Work.dropEntries_grant (w : Work) (g : Entry → Bool) : (w.dropEntries g).grant = w.grant :=
  (congrArg (fun w : Work => w.grant) (w.dropEntries_offQueue g) :)
@[simp] theorem Work.removeEntries_grant (w : Work) (g : Entry → Bool) : (w.removeEntries g).grant = w.grant :=
  (congrArg (fun w : Work => w.grant) (w.removeEntries_offQueue g) :)
@[simp] theorem Work.postSafe_grant (w : Work) (p : Pocket) : (w.postSafe p).grant = w.grant :=
  (congrArg (fun w : Work => w.grant) (w.postSafe_offQueue p) :)
@[simp] theorem Work.sendBroadcast_grant (w : Work) : (w.sendBroadcast).grant = w.grant :=
  (congrArg (fun w : Work => w.grant) (w.sendBroadcast_offQueue) :)
@[simp] theorem Work.broadcastSafe_grant (w : Work) : (w.broadcastSafe).grant = w.grant :=
  (congrArg (fun w : Work => w.grant) (w.broadcastSafe_offQueue) :)

@[simp] theorem Work.dropEntries_post (w : Work) (g : Entry → Bool) : (w.dropEntries g).post = w.post :=
  (congrArg (fun w : Work => w.post) (w.dropEntries_offQueue g) :)
@[simp] theorem Work.removeEntries_post (w : Work) (g : Entry → Bool) : (w.removeEntries g).post = w.post :=
  (congrArg (fun w : Work => w.post) (w.removeEntries_offQueue g) :)
@[simp] theorem Work.postSafe_post (w : Work) (p : Pocket) : (w.postSafe p).post = w.post :=
  (congrArg (fun w : Work => w.post) (w.postSafe_offQueue p) :)
@[simp] theorem Work.sendBroadcast_post (w : Work) : (w.sendBroadcast).post = w.post :=
  (congrArg (fun w : Work => w.post) (w.sendBroadcast_offQueue) :)
@[simp] theorem Work.broadcastSafe_post (w : Work) : (w.broadcastSafe).post = w.post :=
  (congrArg (fun w : Work => w.post) (w.broadcastSafe_offQueue) :)

@[simp] theorem Work.dropEntries_part (w : Work) (g : Entry → Bool) : (w.dropEntries g).part = w.part :=
  (congrArg (fun w : Work => w.part) (w.dropEntries_offQueue g) :)
@[simp] theorem Work.removeEntries_part (w : Work) (g : Entry → Bool) : (w.removeEntries g).part = w.part :=
  (congrArg (fun w : Work => w.part) (w.removeEntries_offQueue g) :)
@[simp] theorem Work.postSafe_part (w : Work) (p : Pocket) : (w.postSafe p).part = w.part :=
  (congrArg (fun w : Work => w.part) (w.postSafe_offQueue p) :)
@[simp] theorem Work.sendBroadcast_part (w : Work) : (w.sendBroadcast).part = w.part :=
  (congrArg (fun w : Work => w.part) (w.sendBroadcast_offQueue) :)
@[simp] theorem Work.broadcastSafe_part (w : Work) : (w.broadcastSafe).part = w.part :=
  (congrArg (fun w : Work => w.part) (w.broadcastSafe_offQueue) :)

@[simp] theorem Work.clearLatchSeen_queue (es : List Entry) : ∀ w : Work, (w.clearLatchSeen es).link.queue = w.link.queue := by
  induction es with
  | nil => intro w; rfl
  | cons e r ih =>
    intro w
    unfold Work.clearLatchSeen
    split
    · rw [ih]; rfl
    · exact ih w

/-- The entries that stay. -/
@[simp] theorem Work.dropEntries_queue (w : Work) (g : Entry → Bool) :
    (w.dropEntries g).link.queue = w.link.queue.filter fun e => !(g e) := by
  unfold Work.dropEntries Work.leave
  dsimp only
  split
  · rename_i h
    have : ∀ e ∈ w.link.queue, (!(g e)) = true := by simpa using h
    exact (List.filter_eq_self.2 this).symm
  · rw [Work.clearLatchSeen_queue]; rfl

/-- Where the link does not act on link states, no SAFE is owed and entries just leave (R111). -/
theorem Work.removeEntries_at_rest (w : Work) (g : Entry → Bool) (h : w.linkActs = false) :
    w.removeEntries g = w.dropEntries g := by
  unfold Work.removeEntries
  split
  · have : (w.dropEntries g).linkActs = false := by simpa [State.linkActs] using h
    simp [Work.admitSafes, this]
  · rename_i hn
    have : w.link.queue.filter g = [] := by simpa using hn
    simp [Work.dropEntries, Work.leave, this]

/-- Without a SAFE owed, entries just leave (R94). -/
theorem Work.admitSafes_none (w : Work) (h : ∀ p, (w.pocketLink p).safeOwed = false) : w.admitSafes = w := by
  have fold : ∀ l : List Pocket, l.foldl (fun (w : Work) p => if (w.pocketLink p).safeOwed then w.putSafe p else w) w = w := by
    intro l
    induction l with
    | nil => rfl
    | cons p l ih => rw [List.foldl_cons, if_neg (by simp [h p]), ih]
  unfold Work.admitSafes
  split
  · exact fold _
  · rfl

/-- Where no room has appeared, nothing that was held back joins (R93). -/
theorem Work.admitHeld_quiet (w : Work) (h : w.room = none) : w.admitHeld = w := by simp [Work.admitHeld, h]

/-- Where no room has appeared, an event acts at once (R93). -/
theorem Work.admitHeldBefore_quiet (w : Work) (p : Pocket) (h : w.room = none) : w.admitHeldBefore p = w := by
  simp [Work.admitHeldBefore, h]

/-! ### What grants leave -/

/-- A grant changes, besides, one mark of a context (R73). -/
@[simp] theorem Work.grantTo_offGrant (w : Work) (p : Pocket) (n : Nat) : (w.grantTo p n).offGrant = w.offGrant := by
  have mark (w : Work) (g : Context → Context) (hg : ∀ c, (g c).ungranted = c.ungranted) :
      (w.onCtx p g).offGrant = w.offGrant := by
    unfold Work.onCtx
    split
    · rename_i c hc
      have hc' : w.ctxs[p] = some c := hc
      have : (upd w.ctxs p (some (g c))).map (Option.map Context.ungranted) = w.ctxs.map (Option.map Context.ungranted) := by
        apply Vector.ext
        intro i hi
        by_cases e : p.val = i
        · subst e
          have hc'' : w.ctxs[p.val] = some c := hc'
          simp [upd, hg, hc'']
        · simp [upd, e]
      show ({ (w.setCtx p (some (g c))).offLink with ctxs := _ } : State) = _
      simp only [State.offGrant, ← this]
      rfl
    · rfl
  unfold Work.grantTo
  dsimp only
  rw [State.offGrant_of_offLink (Work.converge_offLink _ p), State.offGrant_of_offLink (Work.onLink_offLink _ p _), mark]
  · rfl
  · intro c; split <;> rfl

@[simp] theorem Work.evaluateGrants_offGrant : ∀ (n : Nat) (w : Work), (Work.evaluateGrants n w).offGrant = w.offGrant
  | 0, _ => rfl
  | n + 1, w => by
    unfold Work.evaluateGrants
    split
    · split
      · rw [Work.evaluateGrants_offGrant n]; simp
      · rfl
    · rfl

/-- One round of what a command owes. -/
@[simp] theorem Work.settleOnce_offGrant (w : Work) : w.settleOnce.offGrant = w.offGrant := by
  have grants (w : Work) (b : Bool) : (if b then Work.evaluateGrants 5 w else w).offGrant = w.offGrant := by split <;> simp
  have serve (w : Work) (b : Bool) : (if b then w.serveLists else w).offGrant = w.offGrant := by
    split
    · exact State.offGrant_of_offLink (Work.serveLists_offLink w)
    · rfl
  have probes (w : Work) (b : Bool) : (if b then w.admitProbes else w).offGrant = w.offGrant := by
    split
    · exact State.offGrant_of_offLink (Work.admitProbes_offLink w)
    · rfl
  unfold Work.settleOnce
  dsimp only
  rw [grants, serve, probes,
    State.offGrant_of_offLink (foldl_view State.offLink _ (fun v p => by split <;> simp) allPockets _),
    Work.debtFree_toState, State.offGrant_of_offLink (Work.admitHeld_offLink w)]

@[simp] theorem Work.settle_offGrant : ∀ (n : Nat) (w : Work), (Work.settle n w).offGrant = w.offGrant
  | 0, _ => rfl
  | n + 1, w => by
    unfold Work.settle
    split
    · rfl
    · rw [Work.settle_offGrant n]; simp

/-- **What the end of a command can change**: the link, the reservations, the start requests and slots, the operation
queue, the open window's re-poll time and the marks of granted tumbles. -/
@[simp] theorem Work.finish_offGrant (w : Work) : w.finish.offGrant = w.offGrant := Work.settle_offGrant 8 w

/-- A command that owes nothing ends as it stands. -/
theorem Work.finish_of_quiet (w : Work) (h : w.quiet = true) : w.finish = w.toState := by
  simp [Work.finish, Work.settle, h]

theorem foldl_same {α β : Type} {f : β → α → β} {b : β} (h : ∀ a, f b a = b) : ∀ l : List α, l.foldl f b = b
  | [] => rfl
  | a :: l => by rw [List.foldl_cons, h a]; exact foldl_same h l

theorem Work.convergeOne_outside_active (w : Work) (p : Pocket) (h : w.part ≠ .active) : w.convergeOne p = w := by
  unfold Work.convergeOne
  exact if_neg (by simp [State.converges, h])

theorem Work.admitProbes_outside_active (w : Work) (h : w.part ≠ .active) : w.admitProbes = w := by
  unfold Work.admitProbes
  exact if_neg (by simpa using h)

/-- Outside ACTIVE nothing was held back for convergence or a probe (R93, R96). -/
theorem Work.admitHeld_outside_active (w : Work) (h : w.part ≠ .active) : w.admitHeld = { w with room := none } := by
  unfold Work.admitHeld
  split
  · have hv : ({ w with room := none } : Work).part ≠ .active := h
    rw [Work.convergeWaiting, foldl_same fun p => by split <;> simp [Work.convergeOne_outside_active _ p hv],
      Work.admitProbes_outside_active _ hv]
  · rename_i hr
    rw [← hr]

/-- Convergence acts in ACTIVE alone (R96). -/
theorem Work.converge_outside_active (w : Work) (p : Pocket) (h : w.part ≠ .active) :
    w.converge p = { w with room := none } := by
  rw [Work.converge, Work.convergeOne_outside_active w p h, Work.admitHeld_outside_active w h]

/-- Outside ACTIVE a command owes nothing, whatever left the link queue (R92, R111). -/
theorem Work.finish_outside_active (w : Work) (h : w.part ≠ .active) : w.finish = w.toState := by
  have once (w : Work) (hp : w.part ≠ .active) : w.settleOnce = w.debtFree := by
    have lists (v : Work) (hv : v.part ≠ .active) : v.serveLists = v := by
      unfold Work.serveLists; exact if_pos (.inr hv)
    have grants (v : Work) (hv : v.part ≠ .active) : Work.evaluateGrants 5 v = v := by
      have : v.mayGrant = false := by simp [State.mayGrant, hv]
      simp [Work.evaluateGrants, this]
    have fold (v : Work) (hv : v.part ≠ .active) (g : Pocket → Bool) :
        allPockets.foldl (fun v p => if g p then v.convergeOne p else v) v = v :=
      foldl_same (fun p => by split <;> simp [Work.convergeOne_outside_active v p hv]) _
    have v : w.debtFree.part ≠ .active := hp
    unfold Work.settleOnce
    rw [Work.admitHeld_outside_active w hp]
    show (if w.grant then Work.evaluateGrants 5 _ else _) = w.debtFree
    dsimp only
    rw [show ({ w with room := none } : Work).debtFree = w.debtFree from rfl, fold _ v (fun p => w.drop || w.gone.has p),
      Work.admitProbes_outside_active _ v, ite_self, lists _ v, ite_self, grants _ v, ite_self]
  have settle : ∀ (n : Nat) (w : Work), w.part ≠ .active → (Work.settle n w).toState = w.toState := by
    intro n
    induction n with
    | zero => intro w _; rfl
    | succ n ih =>
      intro w h
      unfold Work.settle
      split
      · rfl
      · rw [once w h]
        exact ih _ h
  exact settle 8 w h

/-- Outside ACTIVE and PLAN a command owes nothing, whatever left the link queue (R92, R111). -/
theorem Work.finish_of_linkRests (w : Work) (h : w.linkActs = false) : w.finish = w.toState :=
  w.finish_outside_active (by intro e; simp [State.linkActs, e] at h)

/-! ### The fields a command's end leaves -/

@[simp] theorem Work.finish_powered (w : Work) : w.finish.powered = w.powered :=
  (congrArg State.powered w.finish_offGrant :)
@[simp] theorem Work.finish_part (w : Work) : w.finish.part = w.part :=
  (congrArg State.part w.finish_offGrant :)
@[simp] theorem Work.finish_port (w : Work) : w.finish.port = w.port :=
  (congrArg State.port w.finish_offGrant :)
@[simp] theorem Work.finish_events (w : Work) : w.finish.events = w.events :=
  (congrArg State.events w.finish_offGrant :)
@[simp] theorem Work.finish_sup (w : Work) : w.finish.sup = w.sup :=
  (congrArg State.sup w.finish_offGrant :)
@[simp] theorem Work.finish_backup (w : Work) : w.finish.backup = w.backup :=
  (congrArg State.backup w.finish_offGrant :)
@[simp] theorem Work.finish_store (w : Work) : w.finish.store = w.store :=
  (congrArg State.store w.finish_offGrant :)
@[simp] theorem Work.finish_sag (w : Work) : w.finish.sag = w.sag :=
  (congrArg State.sag w.finish_offGrant :)
@[simp] theorem Work.finish_pending (w : Work) : w.finish.pending = w.pending :=
  (congrArg State.pending w.finish_offGrant :)
@[simp] theorem Work.finish_mask (w : Work) : w.finish.arb.mask = w.arb.mask :=
  (congrArg (fun s : State => s.arb.mask) w.finish_offGrant :)
@[simp] theorem Work.finish_current (w : Work) : w.finish.ctl.current = w.ctl.current :=
  (congrArg (fun s : State => s.ctl.current) w.finish_offGrant :)

end Sys2Proof.Machine
end

