-- ==== Sys2Proof/Laws/Records.lean ====
section
/-! SUPPORT. What an event on one record leaves unchanged (chapters 1, 3, 4 and 5). -/

namespace Sys2Proof.Machine

/-- A view that the link's operations leave is left by an event that goes on with them. -/
theorem offRecord_link {w : Work} {p : Pocket} {s : State} (f : Work → Work) (h : (f w).offLink = w.offLink)
    (hw : w.offRecord p = s.offRecord p) : (f w).offRecord p = s.offRecord p :=
  (State.offRecord_of_offLink p h).trans hw

/-! ### Marks, answers and contexts -/

@[simp] theorem Work.mark_offRecord (w : Work) (k : PocketEvent) (q p : Pocket) : (w.mark k q).offRecord p = w.offRecord p := rfl
@[simp] theorem Work.markPart_offRecord (w : Work) (k : PartEvent) (p : Pocket) : (w.markPart k).offRecord p = w.offRecord p := rfl
@[simp] theorem Work.respond_offRecord (w : Work) (r : Result) (b : List Byte) (p : Pocket) :
    (w.respond r b).offRecord p = w.offRecord p := rfl

@[simp] theorem Work.setCtx_offRecord (w : Work) (p : Pocket) (c : Option Context) : (w.setCtx p c).offRecord p = w.offRecord p := by
  have : upd ((upd w.ctxs p c).map (Option.map Context.ungranted)) p none = upd (w.ctxs.map (Option.map Context.ungranted)) p none := by
    apply Vector.ext
    intro i hi
    by_cases e : p.val = i <;> simp [upd, e]
  have hc : (w.setCtx p c).ctxs = upd w.ctxs p c := rfl
  simp only [State.offRecord, State.blankRecord, State.offGrant, State.offLink, hc, this]
  rfl

@[simp] theorem Work.onCtx_offRecord (w : Work) (p : Pocket) (f : Context → Context) : (w.onCtx p f).offRecord p = w.offRecord p := by
  unfold Work.onCtx; split <;> simp

@[simp] theorem Work.onFast_offRecord (w : Work) (p : Pocket) (f : Fast → Fast) : (w.onFast p f).offRecord p = w.offRecord p :=
  w.onCtx_offRecord p _

@[simp] theorem Work.recordFault_offRecord (w : Work) (p : Pocket) (x : FaultCause) : (w.recordFault p x).offRecord p = w.offRecord p := by
  unfold Work.recordFault; split <;> simp

/-! ### The link's operations, seen from a record -/

@[simp] theorem Work.enqueue_offRecord (w : Work) (op : StoreOp) (p : Pocket) : (w.enqueue op).offRecord p = w.offRecord p := rfl
@[simp] theorem Work.onLink_offRecord (w : Work) (q p : Pocket) (f : PocketLink → PocketLink) :
    (w.onLink q f).offRecord p = w.offRecord p := rfl
@[simp] theorem Work.setQueue_offRecord (w : Work) (q : List Entry) (p : Pocket) : (w.setQueue q).offRecord p = w.offRecord p := rfl
@[simp] theorem Work.onSlot_offRecord (w : Work) (q p : Pocket) (f : Slot → Slot) : (w.onSlot q f).offRecord p = w.offRecord p := rfl
@[simp] theorem Work.releaseSlot_offRecord (w : Work) (q p : Pocket) : (w.releaseSlot q).offRecord p = w.offRecord p := rfl
@[simp] theorem Work.removeRequest_offRecord (w : Work) (q p : Pocket) : (w.removeRequest q).offRecord p = w.offRecord p := rfl
@[simp] theorem Work.believeMotor_offRecord (w : Work) (q p : Pocket) (b : Bool) : (w.believeMotor q b).offRecord p = w.offRecord p := rfl
@[simp] theorem Work.believeHeat_offRecord (w : Work) (q p : Pocket) (x : Option Nat) : (w.believeHeat q x).offRecord p = w.offRecord p := rfl
@[simp] theorem Work.startWindow_offRecord (w : Work) (q p : Pocket) : (w.startWindow q).offRecord p = w.offRecord p := rfl
@[simp] theorem Work.resend_offRecord (w : Work) (p : Pocket) : w.resend.offRecord p = w.offRecord p := rfl
@[simp] theorem Work.waitRetry_offRecord (w : Work) (n : Nat) (p : Pocket) : (w.waitRetry n).offRecord p = w.offRecord p := rfl
@[simp] theorem Work.setWaitList_offRecord (w : Work) (x : SupplyPhase) (l : List Pocket) (p : Pocket) :
    (w.setWaitList x l).offRecord p = w.offRecord p := State.offRecord_of_offLink p (w.setWaitList_offLink x l)
@[simp] theorem Work.demandRead_offRecord (w : Work) (q : Pocket) (why : ReadPurpose) (p : Pocket) :
    (w.demandRead q why).offRecord p = w.offRecord p := State.offRecord_of_offLink p (w.demandRead_offLink q why)
@[simp] theorem Work.releaseHeat_offRecord (w : Work) (q p : Pocket) : (w.releaseHeat q).offRecord p = w.offRecord p :=
  State.offRecord_of_offLink p (w.releaseHeat_offLink q)
@[simp] theorem Work.leaveWaitList_offRecord (w : Work) (q p : Pocket) : (w.leaveWaitList q).offRecord p = w.offRecord p :=
  State.offRecord_of_offLink p (w.leaveWaitList_offLink q)
@[simp] theorem Work.makeRequest_offRecord (w : Work) (q : Pocket) (n : Nat) (p : Pocket) :
    (w.makeRequest q n).offRecord p = w.offRecord p := State.offRecord_of_offLink p (w.makeRequest_offLink q n)
@[simp] theorem Work.removeEntries_offRecord (w : Work) (f : Entry → Bool) (p : Pocket) :
    (w.removeEntries f).offRecord p = w.offRecord p := State.offRecord_of_offLink p (w.removeEntries_offLink f)
@[simp] theorem Work.postClearDoor_offRecord (w : Work) (q p : Pocket) : (w.postClearDoor q).offRecord p = w.offRecord p :=
  State.offRecord_of_offLink p (w.postClearDoor_offLink q)
@[simp] theorem Work.postSafe_offRecord (w : Work) (q p : Pocket) : (w.postSafe q).offRecord p = w.offRecord p :=
  State.offRecord_of_offLink p (w.postSafe_offLink q)
@[simp] theorem Work.postPoll_offRecord (w : Work) (q p : Pocket) : (w.postPoll q).offRecord p = w.offRecord p :=
  State.offRecord_of_offLink p (w.postPoll_offLink q)
@[simp] theorem Work.postProbe_offRecord (w : Work) (q p : Pocket) : (w.postProbe q).offRecord p = w.offRecord p :=
  State.offRecord_of_offLink p (w.postProbe_offLink q)
@[simp] theorem Work.converge_offRecord (w : Work) (q p : Pocket) : (w.converge q).offRecord p = w.offRecord p :=
  State.offRecord_of_offLink p (w.converge_offLink q)
@[simp] theorem Work.rederive_offRecord (w : Work) (q p : Pocket) : (w.rederive q).offRecord p = w.offRecord p :=
  State.offRecord_of_offLink p (w.rederive_offLink q)
@[simp] theorem Work.endAuthority_offRecord (w : Work) (q p : Pocket) : (w.endAuthority q).offRecord p = w.offRecord p :=
  State.offRecord_of_offLink p (w.endAuthority_offLink q)
@[simp] theorem Work.reserve_offRecord (w : Work) (q p : Pocket) : (w.reserve q).offRecord p = w.offRecord p :=
  State.offRecord_of_offLink p (w.reserve_offLink q)
@[simp] theorem Work.endExchange_offRecord (w : Work) (p : Pocket) : w.endExchange.offRecord p = w.offRecord p :=
  State.offRecord_of_offLink p w.endExchange_offLink
@[simp] theorem Work.sendBroadcast_offRecord (w : Work) (p : Pocket) : w.sendBroadcast.offRecord p = w.offRecord p :=
  State.offRecord_of_offLink p w.sendBroadcast_offLink
@[simp] theorem Work.finish_offRecord (w : Work) (p : Pocket) : w.finish.offRecord p = w.offRecord p :=
  State.offRecord_of_offGrant p w.finish_offGrant

@[simp] theorem Work.admitHeld_offRecord (w : Work) (p : Pocket) : w.admitHeld.offRecord p = w.offRecord p :=
  State.offRecord_of_offLink p w.admitHeld_offLink
@[simp] theorem Work.admitHeldBefore_offRecord (w : Work) (p q : Pocket) : (w.admitHeldBefore q).offRecord p = w.offRecord p :=
  State.offRecord_of_offLink p (w.admitHeldBefore_offLink q)

/-! ### The cycle engine -/

@[simp] theorem Work.demandCheckpoint_offRecord (w : Work) (p : Pocket) : (w.demandCheckpoint p).offRecord p = w.offRecord p := by
  unfold Work.demandCheckpoint; split <;> simp

@[simp] theorem Work.leaveCrease_offRecord (w : Work) (p : Pocket) : (w.leaveCrease p).offRecord p = w.offRecord p := by
  unfold Work.leaveCrease
  dsimp only
  repeat' split
  all_goals simp

@[simp] theorem Work.endCrease_offRecord (w : Work) (p : Pocket) : (w.endCrease p).offRecord p = w.offRecord p := by
  simp [Work.endCrease]

@[simp] theorem Work.takeHold_offRecord (w : Work) (p : Pocket) (x : HoldCause) : (w.takeHold p x).offRecord p = w.offRecord p := by
  unfold Work.takeHold
  dsimp only
  repeat' split
  all_goals simp

@[simp] theorem Work.requestAfterHold_offRecord (w : Work) (p : Pocket) (x : HoldCause) :
    (w.requestAfterHold p x).offRecord p = w.offRecord p := by
  unfold Work.requestAfterHold
  dsimp only
  repeat' split
  all_goals simp

@[simp] theorem Work.clearHold_offRecord (w : Work) (p : Pocket) : (w.clearHold p).offRecord p = w.offRecord p := by
  simp [Work.clearHold]

@[simp] theorem Work.levelLost_offRecord (w : Work) (p : Pocket) : (w.levelLost p).offRecord p = w.offRecord p := by
  simp [Work.levelLost]

@[simp] theorem Work.pin_offRecord (w : Work) (p : Pocket) : (w.pin p).offRecord p = w.offRecord p := by
  unfold Work.pin
  dsimp only
  repeat' split
  all_goals simp

@[simp] theorem Work.heatExit_offRecord (w : Work) (p : Pocket) : (w.heatExit p).offRecord p = w.offRecord p := by
  unfold Work.heatExit
  dsimp only
  split <;> simp

@[simp] theorem Work.coolExit_offRecord (w : Work) (p : Pocket) : (w.coolExit p).offRecord p = w.offRecord p := by
  simp [Work.coolExit]

@[simp] theorem Work.setUpCrease_offRecord (w : Work) (p : Pocket) (x : Statics) : (w.setUpCrease p x).offRecord p = w.offRecord p := by
  unfold Work.setUpCrease
  dsimp only
  split <;> simp

@[simp] theorem Work.fillRead_offRecord (w : Work) (p : Pocket) (x : Statics) (why : ReadPurpose) :
    (w.fillRead p x why).offRecord p = w.offRecord p := by
  unfold Work.fillRead
  dsimp only
  repeat' split
  all_goals simp

/-- What leaves the operation queue and the operation in progress with a context is not seen. -/
@[simp] theorem Work.dropContext_offRecord (w : Work) (p : Pocket) : (w.dropContext p).offRecord p = w.offRecord p := by
  unfold Work.dropContext
  dsimp only
  rw [Work.setCtx_offRecord]
  rfl

@[simp] theorem Work.retireRecord_offRecord (w : Work) (p : Pocket) (host : Bool) :
    (w.retireRecord p host).offRecord p = w.offRecord p := by
  unfold Work.retireRecord
  split
  · rfl
  · simp

@[simp] theorem Work.doorOpened_offRecord (w : Work) (p : Pocket) : (w.doorOpened p).offRecord p = w.offRecord p := by
  unfold Work.doorOpened
  repeat' split
  all_goals simp

@[simp] theorem Work.doorClosed_offRecord (w : Work) (p : Pocket) : (w.doorClosed p).offRecord p = w.offRecord p := by
  unfold Work.doorClosed; split <;> simp

@[simp] theorem Work.coolFirstExit_offRecord (w : Work) (p : Pocket) : (w.coolFirstExit p).offRecord p = w.offRecord p := by
  unfold Work.coolFirstExit
  dsimp only
  repeat' split
  all_goals simp

@[simp] theorem Work.heatRequest_offRecord (w : Work) (p : Pocket) : (w.heatRequest p).offRecord p = w.offRecord p := by
  unfold Work.heatRequest
  dsimp only
  repeat' split
  all_goals simp

/-! ### Changes of link state -/

@[simp] theorem Work.setLinkState_offRecord (w : Work) (q p : Pocket) (x : LinkState) (c : Option FaultCause) :
    (w.setLinkState q x c).offRecord p = w.offRecord p := by
  unfold Work.setLinkState; split <;> simp

@[simp] theorem Work.comeOnline_offRecord (w : Work) (p : Pocket) : (w.comeOnline p).offRecord p = w.offRecord p := by
  unfold Work.comeOnline
  dsimp only
  repeat' split
  all_goals simp

@[simp] theorem Work.clearLink_offRecord (w : Work) (p q : Pocket) : (w.clearLink p).offRecord q = w.offRecord q :=
  State.offRecord_of_offLink q (w.removeEntries_offLink _)

@[simp] theorem Work.loseLink_offRecord (w : Work) (p : Pocket) (x : FaultCause) : (w.loseLink p x).offRecord p = w.offRecord p := by
  unfold Work.loseLink
  dsimp only
  split <;> simp

@[simp] theorem Work.goOffline_offRecord (w : Work) (p : Pocket) : (w.goOffline p).offRecord p = w.offRecord p := by
  unfold Work.goOffline
  dsimp only
  split <;> simp

@[simp] theorem Work.goFault_offRecord (w : Work) (p : Pocket) (x : FaultCause) : (w.goFault p x).offRecord p = w.offRecord p := by
  unfold Work.goFault
  dsimp only
  split <;> simp

/-! ### Requests on a record -/

/-- A request on a record changes what an event on that record may change, and nothing else. -/
@[simp] theorem Work.onRecord_offRecord (w : Work) (r : HostReq) (p : Pocket) (c : Context) :
    (w.onRecord r p c).offRecord p = w.offRecord p := by
  unfold Work.onRecord
  split
  · unfold Work.takeStart
    dsimp only
    repeat' split
    all_goals simp
  · unfold Work.takeExtend
    dsimp only
    split <;> simp
  · unfold Work.takeEndHeat
    dsimp only
    repeat' split
    all_goals simp
  · simp [Work.takeSetHeat]
  · unfold Work.takeSetOptions; split <;> simp
  · simp
  · simp [Work.takeLookup]
  · rfl

/-- A translated request changes what an event on the record it names may change, and nothing else. -/
@[simp] theorem Work.translated_offRecord (w : Work) (r : HostReq) (p : Pocket) (e : MapEntry) :
    (w.translated r p e).offRecord p = w.offRecord p := by
  have fault : (w.onMapFault r p).offRecord p = w.offRecord p := by
    unfold Work.onMapFault; repeat' split
    all_goals simp
  unfold Work.translated
  repeat' split
  all_goals first | exact fault | simp

/-! ### The clocks -/

@[simp] theorem Work.endTumble_offRecord (w : Work) (p : Pocket) : (w.endTumble p).offRecord p = w.offRecord p := by
  unfold Work.endTumble
  dsimp only
  split <;> simp

@[simp] theorem Work.tumbleDue_offRecord (w : Work) (p : Pocket) : (w.tumbleDue p).offRecord p = w.offRecord p := by
  simp [Work.tumbleDue]

@[simp] theorem Work.stepCrease_offRecord (w : Work) (p : Pocket) (c : Context) (cp : CreaseProgress) :
    (w.stepCrease p c cp).offRecord p = w.offRecord p := by
  unfold Work.stepCrease
  dsimp only
  repeat' split
  all_goals simp

@[simp] theorem Work.stepHeat_offRecord (w : Work) (p : Pocket) (f : Fast) : (w.stepHeat p f).offRecord p = w.offRecord p := by
  unfold Work.stepHeat
  dsimp only
  repeat' split
  all_goals simp

@[simp] theorem Work.stepCool_offRecord (w : Work) (p : Pocket) (f : Fast) : (w.stepCool p f).offRecord p = w.offRecord p := by
  unfold Work.stepCool
  dsimp only
  repeat' split
  all_goals simp

@[simp] theorem Work.stepRecord_offRecord (w : Work) (p : Pocket) : (w.stepRecord p).offRecord p = w.offRecord p := by
  unfold Work.stepRecord
  repeat' split
  all_goals simp

@[simp] theorem Work.timerAtZero_offRecord (w : Work) (p : Pocket) : (w.timerAtZero p).offRecord p = w.offRecord p := by
  unfold Work.timerAtZero
  repeat' split
  all_goals simp

@[simp] theorem Work.stepTimer_offRecord (w : Work) (p : Pocket) : (w.stepTimer p).offRecord p = w.offRecord p := by
  unfold Work.stepTimer
  dsimp only
  repeat' split
  all_goals simp

/-! ### Replies -/

@[simp] theorem Work.statusInActive_offRecord (w : Work) (p : Pocket) (r : StatusReport) :
    (w.statusInActive p r).offRecord p = w.offRecord p := by
  have believe (w : Work) : (w.believeReport p r).offRecord p = w.offRecord p := by simp [Work.believeReport]
  have lost (w : Work) : (w.lostStart p r).offRecord p = w.offRecord p := by
    unfold Work.lostStart; dsimp only; split <;> simp
  have temp (w : Work) : (w.noteTemperature p r).offRecord p = w.offRecord p := by
    unfold Work.noteTemperature; split <;> simp
  have door (w : Work) : (w.judgeDoor p r).offRecord p = w.offRecord p := by
    unfold Work.judgeDoor; dsimp only; repeat' split
    all_goals simp
  have faults (w : Work) : (w.judgeFaults p r).offRecord p = w.offRecord p := by
    unfold Work.judgeFaults; dsimp only; repeat' split
    all_goals simp
  unfold Work.statusInActive
  dsimp only
  repeat' split
  all_goals simp [faults, door, temp, lost, believe, Work.noteExhaust]

@[simp] theorem Work.runOnRecord_offRecord (w : Work) (p : Pocket) : (w.runOnRecord p).offRecord p = w.offRecord p := by
  unfold Work.runOnRecord
  dsimp only
  repeat' split
  all_goals simp

@[simp] theorem Work.heatOnRecord_offRecord (w : Work) (p : Pocket) : (w.heatOnRecord p).offRecord p = w.offRecord p := by
  unfold Work.heatOnRecord; split <;> simp

@[simp] theorem Work.runRefused_offRecord (w : Work) (p : Pocket) (e : Entry) : (w.runRefused p e).offRecord p = w.offRecord p := by
  unfold Work.runRefused; dsimp only; split <;> simp

@[simp] theorem Work.heatOnRefused_offRecord (w : Work) (p : Pocket) (e : Entry) : (w.heatOnRefused p e).offRecord p = w.offRecord p := by
  unfold Work.heatOnRefused; dsimp only; repeat' split
  all_goals simp

@[simp] theorem Work.silence_offRecord (w : Work) (p : Pocket) (e : Entry) : (w.silence p e).offRecord p = w.offRecord p := by
  unfold Work.silence; dsimp only; repeat' split
  all_goals simp

@[simp] theorem Work.doorRefusesRun_offRecord (w : Work) (p : Pocket) : (w.doorRefusesRun p).offRecord p = w.offRecord p := by
  simp [Work.doorRefusesRun]

@[simp] theorem Work.believePosted_offRecord (w : Work) (p : Pocket) (k : CommandKind) : (w.believePosted p k).offRecord p = w.offRecord p := by
  unfold Work.believePosted; split <;> simp

end Sys2Proof.Machine
end

