-- ==== Sys2Proof/Laws/Store.lean ====
section
/-! SUPPORT. The record store: the canonical form of its conditions, reading after writing, and that every operation keeps
the form (R33, log entry 1). -/

namespace Sys2Proof.Machine

/-! ### The list of conditions -/

theorem mem_putFlaw {x : Nat × Flaw} {n : Nat} {v : Option Flaw} :
    ∀ {l : List (Nat × Flaw)}, x ∈ putFlaw l n v → x ∈ l ∨ x.1 = n
  | [], h => by cases v <;> simp_all [putFlaw]
  | (m, y) :: r, h => by
    have ih := @mem_putFlaw x n v r
    unfold putFlaw at h
    split at h
    · cases v <;> simp_all
      rcases h with h | h | h <;> simp_all
    · split at h
      · cases v <;> simp_all
        rcases h with h | h <;> simp_all
      · simp only [List.mem_cons] at h ⊢
        rcases h with h | h
        · exact .inl (.inl h)
        · rcases ih h with h | h
          · exact .inl (.inr h)
          · exact .inr h

theorem putFlaw_rising {n : Nat} {v : Option Flaw} :
    ∀ {l : List (Nat × Flaw)}, (l.map (·.1)).Pairwise (· < ·) → ((putFlaw l n v).map (·.1)).Pairwise (· < ·)
  | [], _ => by cases v <;> simp [putFlaw]
  | (m, y) :: r, h => by
    simp only [List.map_cons, List.pairwise_cons] at h
    have ih := @putFlaw_rising n v r h.2
    unfold putFlaw
    split
    · rename_i hn
      have hr : ∀ a ∈ r.map (·.1), n < a := fun a ha => Nat.lt_trans hn (h.1 a ha)
      cases v
      · simpa using h
      · simp only [List.map_cons, List.pairwise_cons, List.mem_cons]
        refine ⟨?_, h⟩
        rintro a (rfl | ha)
        · exact hn
        · exact hr a ha
    · split
      · rename_i hn
        subst hn
        cases v
        · simpa using h.2
        · simpa using h
      · simp only [List.map_cons, List.pairwise_cons]
        refine ⟨?_, ih⟩
        intro a ha
        simp only [List.mem_map] at ha
        obtain ⟨x, hx, rfl⟩ := ha
        rcases mem_putFlaw hx with hx | hx
        · exact h.1 _ (List.mem_map.2 ⟨x, hx, rfl⟩)
        · omega

theorem lookup_putFlaw_self {n : Nat} {v : Option Flaw} :
    ∀ {l : List (Nat × Flaw)}, (l.map (·.1)).Pairwise (· < ·) → (putFlaw l n v).lookup n = v
  | [], _ => by cases v <;> simp [putFlaw]
  | (m, y) :: r, h => by
    simp only [List.map_cons, List.pairwise_cons] at h
    have absent : ∀ l : List (Nat × Flaw), (∀ a ∈ l.map (·.1), n < a) → l.lookup n = none := by
      intro l
      induction l with
      | nil => intro _; rfl
      | cons x l ih =>
        intro hl
        have hx : n < x.1 := hl _ (by simp)
        have : (n == x.1) = false := by simp; omega
        simp only [List.lookup, this]
        exact ih fun a ha => hl a (by simp only [List.map_cons, List.mem_cons]; exact .inr ha)
    unfold putFlaw
    split
    · rename_i hn
      cases v
      · apply absent
        intro a ha
        simp only [List.map_cons, List.mem_cons] at ha
        rcases ha with rfl | ha
        · exact hn
        · exact Nat.lt_trans hn (h.1 a ha)
      · simp [List.lookup]
    · split
      · rename_i hn
        subst hn
        cases v
        · exact absent r h.1
        · simp [List.lookup]
      · have : (n == m) = false := by simp; omega
        simp only [List.lookup, this]
        exact lookup_putFlaw_self h.2

theorem lookup_putFlaw_other {n k : Nat} {v : Option Flaw} (hk : k ≠ n) :
    ∀ {l : List (Nat × Flaw)}, (putFlaw l n v).lookup k = l.lookup k
  | [] => by
    have : (k == n) = false := by simp [hk]
    cases v <;> simp [putFlaw, List.lookup, this]
  | (m, y) :: r => by
    have hkn : (k == n) = false := by simp [hk]
    unfold putFlaw
    split
    · cases v <;> simp [List.lookup, hkn]
    · split
      · rename_i hn
        subst hn
        cases v <;> simp [List.lookup, hkn]
      · simp only [List.lookup]
        split
        · rfl
        · exact lookup_putFlaw_other hk

/-! ### Reading after writing -/

theorem Store.wf_iff (s : Store) :
    s.wf = true ↔ (s.flaws.map (·.1)).Pairwise (· < ·) ∧ ∀ x ∈ s.flaws, x.1 < Config.storeWords := by
  simp [Store.wf]

/-- A word given a condition has it (R33). -/
theorem Store.flaw_setFlaw_self {s : Store} (h : s.wf = true) {n : Nat} (hn : n < Config.storeWords) (v : Option Flaw) :
    (s.setFlaw n v).flaw n = v := by
  rw [Store.wf_iff] at h
  simp only [Store.setFlaw, hn, if_true, Store.flaw]
  exact lookup_putFlaw_self h.1

/-- Every other word keeps its condition. -/
theorem Store.flaw_setFlaw_other (s : Store) {n k : Nat} (hk : k ≠ n) (v : Option Flaw) :
    (s.setFlaw n v).flaw k = s.flaw k := by
  unfold Store.setFlaw
  split
  · exact lookup_putFlaw_other hk
  · rfl

/-- A frame written is read back, and no other frame changes. -/
theorem Store.frame_setFrame (s : Store) (f g : Nat) (x : Frame) (hf : f < 48) :
    (s.setFrame f x).frame g = if g = f then x else s.frame g := by
  unfold Store.setFrame Store.frame
  rw [dif_pos hf]
  by_cases e : g = f
  · subst e; simp [hf]
  · have : f ≠ g := fun h => e h.symm
    by_cases hg : g < 48 <;> simp [hg, e, this]

@[simp] theorem Store.setFrame_flaw (s : Store) (f n : Nat) (x : Frame) : (s.setFrame f x).flaw n = s.flaw n := by
  unfold Store.setFrame; split <;> rfl

/-! ### The canonical form is kept -/

@[simp] theorem Store.setFlaw_wf {s : Store} (h : s.wf = true) (n : Nat) (v : Option Flaw) : (s.setFlaw n v).wf = true := by
  unfold Store.setFlaw
  split
  · rename_i hn
    rw [Store.wf_iff] at h ⊢
    refine ⟨putFlaw_rising h.1, fun x hx => ?_⟩
    rcases mem_putFlaw hx with hx | hx
    · exact h.2 x hx
    · rw [hx]; exact hn
  · exact h

@[simp] theorem Store.setFrame_wf {s : Store} (h : s.wf = true) (f : Nat) (x : Frame) : (s.setFrame f x).wf = true := by
  unfold Store.setFrame; split <;> exact h

@[simp] theorem Store.fail_wf {s : Store} (h : s.wf = true) (x : Nat × Flaw) : (s.fail x).wf = true := by
  unfold Store.fail; split
  · exact h
  · exact Store.setFlaw_wf h _ _

/-- The form is one of the conditions alone. -/
theorem Store.wf_of_flaws {a b : Store} (e : a.flaws = b.flaws) (h : b.wf = true) : a.wf = true := by
  rw [Store.wf_iff] at h ⊢; rw [e]; exact h

theorem Store.failAll_wf (xs : List (Nat × Flaw)) : ∀ {s : Store}, s.wf = true → (xs.foldl Store.fail s).wf = true := by
  induction xs with
  | nil => exact id
  | cons x xs ih => exact fun h => ih (Store.fail_wf h x)

/-- A fold keeps the form when every step does. -/
theorem foldl_wf {α : Type} (f : Work → α → Work) (h : ∀ w a, w.store.wf = true → (f w a).store.wf = true) :
    ∀ (l : List α) (w : Work), w.store.wf = true → (l.foldl f w).store.wf = true
  | [], _, hw => hw
  | a :: l, w, hw => foldl_wf f h l (f w a) (h w a hw)

/-! ### Operations that do not reach the store -/

theorem State.store_of_offRecord {a b : State} (p : Pocket) (h : a.offRecord p = b.offRecord p) : a.store = b.store :=
  (congrArg State.store h :)

theorem State.store_of_offLink {a b : State} (h : a.offLink = b.offLink) : a.store = b.store := (congrArg State.store h :)

theorem foldl_store {α : Type} (f : Work → α → Work) (h : ∀ w a, (f w a).store = w.store) (l : List α) (w : Work) :
    (l.foldl f w).store = w.store := foldl_view State.store f h l w

@[simp] theorem Work.rederive_store (w : Work) (p : Pocket) : (w.rederive p).store = w.store :=
  State.store_of_offLink (w.rederive_offLink p)
@[simp] theorem Work.makeRequest_store (w : Work) (p : Pocket) (n : Nat) : (w.makeRequest p n).store = w.store :=
  State.store_of_offLink (w.makeRequest_offLink p n)
@[simp] theorem Work.removeEntries_store (w : Work) (f : Entry → Bool) : (w.removeEntries f).store = w.store :=
  State.store_of_offLink (w.removeEntries_offLink f)
@[simp] theorem Work.broadcastSafe_store (w : Work) : w.broadcastSafe.store = w.store :=
  State.store_of_offLink w.broadcastSafe_offLink
@[simp] theorem Work.postPoll_store (w : Work) (p : Pocket) : (w.postPoll p).store = w.store :=
  State.store_of_offLink (w.postPoll_offLink p)
@[simp] theorem Work.postClearDoor_store (w : Work) (p : Pocket) : (w.postClearDoor p).store = w.store :=
  State.store_of_offLink (w.postClearDoor_offLink p)
@[simp] theorem Work.onCtx_store (w : Work) (p : Pocket) (f : Context → Context) : (w.onCtx p f).store = w.store :=
  State.store_of_offRecord p (w.onCtx_offRecord p f)
@[simp] theorem Work.dropContext_store (w : Work) (p : Pocket) : (w.dropContext p).store = w.store :=
  State.store_of_offRecord p (w.dropContext_offRecord p)
@[simp] theorem Work.levelLost_store (w : Work) (p : Pocket) : (w.levelLost p).store = w.store :=
  State.store_of_offRecord p (w.levelLost_offRecord p)
@[simp] theorem Work.pin_store (w : Work) (p : Pocket) : (w.pin p).store = w.store :=
  State.store_of_offRecord p (w.pin_offRecord p)
@[simp] theorem Work.demandCheckpoint_store (w : Work) (p : Pocket) : (w.demandCheckpoint p).store = w.store :=
  State.store_of_offRecord p (w.demandCheckpoint_offRecord p)
@[simp] theorem Work.endCrease_store (w : Work) (p : Pocket) : (w.endCrease p).store = w.store :=
  State.store_of_offRecord p (w.endCrease_offRecord p)
@[simp] theorem Work.fillRead_store (w : Work) (p : Pocket) (x : Statics) (why : ReadPurpose) : (w.fillRead p x why).store = w.store :=
  State.store_of_offRecord p (w.fillRead_offRecord p x why)
@[simp] theorem Work.setLinkState_store (w : Work) (p : Pocket) (x : LinkState) (c : Option FaultCause) :
    (w.setLinkState p x c).store = w.store := State.store_of_offRecord p (w.setLinkState_offRecord p p x c)
@[simp] theorem Work.translated_store (w : Work) (r : HostReq) (p : Pocket) (e : MapEntry) : (w.translated r p e).store = w.store :=
  State.store_of_offRecord p (w.translated_offRecord r p e)
@[simp] theorem Work.setUpCrease_store (w : Work) (p : Pocket) (x : Statics) : (w.setUpCrease p x).store = w.store :=
  State.store_of_offRecord p (w.setUpCrease_offRecord p x)

@[simp] theorem Work.offer_store (w : Work) (n : Nat) (x : Flaw) (src : LatchSource) : (w.offer n x src).store = w.store := by
  unfold Work.offer; dsimp only; split <;> rfl

@[simp] theorem Work.endMapFault_store (w : Work) (p : Pocket) : (w.endMapFault p).store = w.store := by
  unfold Work.endMapFault; split <;> rfl

@[simp] theorem Work.freeFrame_store (w : Work) (f : Nat) : (w.freeFrame f).store = w.store := by
  unfold Work.freeFrame
  dsimp only
  repeat' split
  all_goals rfl

theorem Work.beginMove_store {w w' : Work} {r : Running} {f : Nat} {ks : List Nat} (h : w.beginMove r f ks = some w') :
    w'.store = w.store := by
  unfold Work.beginMove at h
  split at h
  · cases h
  · cases h; rfl

@[simp] theorem Work.onOpContext_store (w : Work) (r : Running) (f : Context → Context) : (w.onOpContext r f).store = w.store := by
  unfold Work.onOpContext; split <;> simp

@[simp] theorem Work.carry_store (w : Work) (r : Running) (m : FieldSet) : (w.carry r m).store = w.store := by
  simp [Work.carry]

@[simp] theorem Work.firstWordLost_store (w : Work) (r : Running) (k : Nat) : (w.firstWordLost r k).store = w.store := by
  unfold Work.firstWordLost
  repeat' split
  all_goals simp

@[simp] theorem Work.pinForOp_store (w : Work) (r : Running) : (w.pinForOp r).store = w.store := by
  unfold Work.pinForOp; split <;> simp

@[simp] theorem Work.mergeFails_store (w : Work) (r : Running) (f k : Nat) : (w.mergeFails r f k).store = w.store := by
  unfold Work.mergeFails
  split
  · rename_i h; exact Work.beginMove_store h
  · simp

/-! ### PLAN and the save do not write the store themselves -/

@[simp] theorem Work.openWindow_store (w : Work) (p : Pocket) : (w.openWindow p).store = w.store := by simp [Work.openWindow]

@[simp] theorem Work.bringUp_store (w : Work) : w.bringUp.store = w.store := by
  unfold Work.bringUp
  dsimp only
  rw [Work.broadcastSafe_store, foldl_store]
  · rfl
  · intro w p; split <;> simp

@[simp] theorem Work.enterPlan_store (w : Work) (b : Bool) : (w.enterPlan b).store = w.store := by
  unfold Work.enterPlan
  dsimp only
  rw [Work.openWindow_store]
  cases b
  · simp
  · simp only [if_true]
    rw [foldl_store]
    · simp
    · intro w p; split <;> simp

@[simp] theorem Work.enqueueCommitMove_store (w : Work) (p : Pocket) (n : Nat) : (w.enqueueCommitMove p n).store = w.store := by
  unfold Work.enqueueCommitMove; split <;> rfl

/-- The commit's move waits, whether it joined or is one that waited already (R40, R171). -/
theorem Work.mem_enqueueCommitMove (w : Work) (p : Pocket) (n : Nat) : .move p n true ∈ (w.enqueueCommitMove p n).ctl.queue := by
  unfold Work.enqueueCommitMove
  split
  · rename_i h
    obtain ⟨op, hm, hop⟩ := List.any_eq_true.1 h
    exact List.mem_map.2 ⟨op, hm, if_pos hop⟩
  · simp

@[simp] theorem Work.commitRecord_store (w : Work) (p : Pocket) (x : Image) : (w.commitRecord p x).store = w.store := by
  unfold Work.commitRecord
  dsimp only
  repeat' split
  all_goals simp

@[simp] theorem Work.takeUp_store (w : Work) (p : Pocket) : (w.takeUp p).store = w.store := by
  unfold Work.takeUp
  dsimp only
  repeat' split
  all_goals simp

@[simp] theorem Work.planRecords_store (w : Work) : w.planRecords.store = w.store := by
  unfold Work.planRecords
  split
  · exact foldl_store _ (fun w p => w.takeUp_store p) _ w
  · rfl

@[simp] theorem Work.commitNext_store (w : Work) : w.commitNext.store = w.store := by
  unfold Work.commitNext
  repeat' split
  all_goals simp

/-- PLAN goes on without a write of its own (R155). -/
@[simp] theorem Work.planOn_store (w : Work) : w.planOn.store = w.store := by simp [Work.planOn]

@[simp] theorem Work.beginPlanning_store (w : Work) : w.beginPlanning.store = w.store := by simp [Work.beginPlanning]

@[simp] theorem Work.endWindow_store (w : Work) : w.endWindow.store = w.store := by
  unfold Work.endWindow
  repeat' split
  all_goals simp

@[simp] theorem Work.enterActive_store (w : Work) : w.enterActive.store = w.store := by
  unfold Work.enterActive
  dsimp only
  rw [foldl_store _ (fun w p => by simp), foldl_store]
  · rw [Work.enter_store, foldl_store]
    intro w p; split <;> simp
  · intro w p
    repeat' split
    all_goals simp

@[simp] theorem Work.endSave_store (w : Work) : w.endSave.store = w.store := by
  unfold Work.endSave; dsimp only; split <;> simp

@[simp] theorem Work.saveNext_store : ∀ (n : Nat) (w : Work), (Work.saveNext n w).store = w.store
  | 0, _ => rfl
  | n + 1, w => by
    unfold Work.saveNext
    split
    · simp
    · dsimp only
      split
      · split
        · rename_i h; rw [Work.beginMove_store h]; simp
        · rw [Work.saveNext_store n]; simp
      · simp

@[simp] theorem Work.decideMark_store (w : Work) : w.decideMark.store = w.store := by
  unfold Work.decideMark; split <;> rfl

@[simp] theorem Work.saveAdvance_store (w : Work) (r : Running) : (w.saveAdvance r).store = w.store := by
  unfold Work.saveAdvance
  dsimp only
  repeat' split
  all_goals simp

/-- The end of an operation writes nothing (R40). -/
@[simp] theorem Work.endOp_store (w : Work) (r : Running) : (w.endOp r).store = w.store := by
  unfold Work.endOp; dsimp only; split <;> simp

@[simp] theorem Work.checkpointEnded_store (w : Work) (p : Pocket) : (w.checkpointEnded p).store = w.store := by
  simp [Work.checkpointEnded]

@[simp] theorem Work.endsAtOnce_store (w : Work) (op : StoreOp) : (w.endsAtOnce op).store = w.store := by simp [Work.endsAtOnce]

/-- Service writes nothing by itself (R40). -/
@[simp] theorem Work.serveNext_store (w : Work) : w.serveNext.store = w.store := by
  unfold Work.serveNext
  split
  · unfold Work.serve1
    repeat' split
    all_goals try simp
    · unfold Work.serveCheckpoint
      repeat' split
      all_goals simp
    · unfold Work.serveMove
      repeat' split
      all_goals try simp
      · rename_i h _; rw [Work.beginMove_store h]
      · rename_i h _; rw [Work.beginMove_store h]
  · rfl

@[simp] theorem Work.recordOpEnds_store (w : Work) (r : Running) (x : Statics) : (w.recordOpEnds r x).store = w.store := by
  unfold Work.recordOpEnds
  repeat' split
  all_goals try simp
  · exact foldl_store _ (fun w why => by simp) _ w
  all_goals
    unfold Work.staticChanged
    repeat' split
    all_goals simp

@[simp] theorem Work.endRecordOp_store (w : Work) (r : Running) : (w.endRecordOp r).store = w.store := by simp [Work.endRecordOp]

@[simp] theorem Work.endMove_store (w : Work) (r : Running) (m : MoveData) : (w.endMove r m).store = w.store := by
  unfold Work.endMove
  dsimp only
  split <;> simp

/-! ### Operations that reach the store keep its form -/

@[simp] theorem Work.wrote_wf {w : Work} (h : w.store.wf = true) (n : Nat) : (w.wrote n).store.wf = true := Store.setFlaw_wf h n _
@[simp] theorem Work.fail_wf {w : Work} (h : w.store.wf = true) (xs : List (Nat × Flaw)) : (w.fail xs).store.wf = true :=
  Store.failAll_wf xs h
@[simp] theorem Work.failAfterWrite_wf {w : Work} (h : w.store.wf = true) (n : Nat) : (w.failAfterWrite n).store.wf = true :=
  Work.fail_wf h _
@[simp] theorem Work.writeHeader_wf {w : Work} (h : w.store.wf = true) (f : Nat) (x : Header) : (w.writeHeader f x).store.wf = true :=
  Work.wrote_wf (Store.setFrame_wf h f _) _
@[simp] theorem Work.writeFrameWord_wf {w : Work} (h : w.store.wf = true) (f k : Nat) (x : Frame) :
    (w.writeFrameWord f k x).store.wf = true := Work.wrote_wf (Store.setFrame_wf h f _) _
@[simp] theorem Work.writeSettingsWord_wf {w : Work} (h : w.store.wf = true) (x : Settings) (k : Nat) :
    (w.writeSettingsWord x k).store.wf = true := by
  have hs : ({ w.store with settings := w.store.settings.withWord x k } : Store).wf = true := by
    rw [Store.wf_iff] at h ⊢; exact h
  have := Store.setFlaw_wf hs k none
  simpa only [Work.writeSettingsWord, Work.wrote] using this
@[simp] theorem Work.writeMark_wf {w : Work} (h : w.store.wf = true) (m : OutageMark) : (w.writeMark m).store.wf = true :=
  Store.setFlaw_wf (Store.wf_of_flaws rfl h) markWord none
@[simp] theorem Work.writeFormat_wf {w : Work} (h : w.store.wf = true) (f : FormatWord) : (w.writeFormat f).store.wf = true := by
  have hf : ({ w.store with format := f } : Store).wf = true := Store.wf_of_flaws rfl h
  have := Store.setFlaw_wf hf 0 none
  simpa only [Work.writeFormat, Work.wrote] using this

@[simp] theorem Work.readWord_wf {w : Work} (h : w.store.wf = true) (n : Nat) (src : LatchSource) (b : Bool) :
    (w.readWord n src b).store.wf = true := by
  unfold Work.readWord
  dsimp only
  repeat' split
  all_goals simp [h]

@[simp] theorem Work.writeMap_wf {w : Work} (h : w.store.wf = true) (p : Pocket) (e : MapEntry) :
    (w.writeMap p e).store.wf = true := by
  have hw : ({ w.store with map := upd w.store.map p e } : Store).wf = true := Store.wf_of_flaws rfl h
  unfold Work.writeMap
  dsimp only
  split
  all_goals
    exact Work.readWord_wf (Work.failAfterWrite_wf (Store.setFlaw_wf hw (mapWord p) none) _) _ _ _

/-- An access of the operation in progress keeps the form of the store. -/
theorem Work.access_wf {w : Work} (h : w.store.wf = true) : w.access.store.wf = true := by
  have start (r : Running) : ({ w with ctl := { w.ctl with current := some r } } : Work).store.wf = true := h
  have merge (w : Work) (h : w.store.wf = true) (r c k) : (w.mergeWord r c k).store.wf = true := by
    unfold Work.mergeWord; dsimp only; split <;> simp [h]
  have close (w : Work) (h : w.store.wf = true) (r p c b) : (w.headerClose r p c b).store.wf = true := by
    simp [Work.headerClose, h]
  have stat (w : Work) (h : w.store.wf = true) (r c x) : (w.staticMerge r c x).store.wf = true := by
    unfold Work.staticMerge; dsimp only; split <;> simp [h]
  have read (w : Work) (h : w.store.wf = true) (r c k) : (w.readStatic r c k).store.wf = true := by
    unfold Work.readStatic
    dsimp only
    repeat' split
    all_goals try simp [h]
    rename_i hm
    rw [Work.beginMove_store hm]
    simp [h]
  have mread (w : Work) (h : w.store.wf = true) (m c k) : (w.moveRead m c k).store.wf = true := by
    unfold Work.moveRead; dsimp only; split <;> simp [h]
  have mrest (w : Work) (h : w.store.wf = true) (r m c) : (w.moveReadRest r m c).store.wf = true := by
    unfold Work.moveReadRest
    dsimp only
    repeat' split
    all_goals simp [h]
  have mmap (w : Work) (h : w.store.wf = true) (r m p c) : (w.moveMap r m p c).store.wf = true := by
    unfold Work.moveMap; dsimp only; split <;> simp [h]
  have rmap (w : Work) (h : w.store.wf = true) (p f b) : (w.retireMap p f b).store.wf = true := by
    unfold Work.retireMap; dsimp only; repeat' split
    all_goals simp [h]
  have fmap (w : Work) (h : w.store.wf = true) (p) : (w.formatMapWord p).store.wf = true := by
    unfold Work.formatMapWord; dsimp only; split <;> simp [h]
  have record (w : Work) (h : w.store.wf = true) (r p c a) : (w.recordAccess r p c a).store.wf = true := by
    unfold Work.recordAccess
    split
    all_goals simp [h, Work.headerOpen, Work.moveWrite, Work.moveHeader, merge w h, close w h, stat w h, read w h, mread w h,
      mrest w h, mmap w h]
  have whole (w : Work) (h : w.store.wf = true) (f src b) : (w.readWholeFrame f src b).store.wf = true :=
    foldl_wf _ (fun w k hw => Work.readWord_wf hw _ _ _) _ w h
  have blank (w : Work) (h : w.store.wf = true) (g f) :
      ((List.range (frameSize g)).foldl (fun (w : Work) k => w.wrote (frameWord g f k))
        { w with store := w.store.setFrame f Frame.blank }).store.wf = true :=
    foldl_wf _ (fun w k hw => Work.wrote_wf hw _) _ _ (Store.setFrame_wf h f Frame.blank)
  have plain (w : Work) (h : w.store.wf = true) (r a) : (w.plainAccess r a).store.wf = true := by
    unfold Work.plainAccess
    split
    all_goals try simp [h, rmap w h, fmap w h, blank w h, whole w h]
    split <;> simp [h]
  unfold Work.access
  split
  · exact h
  · split
    · exact h
    · dsimp only
      split
      · exact record _ (start _) _ _ _ _
      · exact plain _ (start _) _ _

theorem Work.runPlain_wf : ∀ (n : Nat) {w : Work}, w.store.wf = true → (Work.runPlain n w).store.wf = true
  | 0, _, h => h
  | n + 1, w, h => by
    unfold Work.runPlain
    split
    · split
      · exact h
      · exact Work.runPlain_wf n (Work.access_wf h)
    · exact h

theorem Work.runAll_wf : ∀ (n : Nat) {w : Work}, w.store.wf = true → (Work.runAll n w).store.wf = true
  | 0, _, h => h
  | n + 1, w, h => by
    unfold Work.runAll
    split
    · split
      · exact h
      · exact Work.runAll_wf n (Work.access_wf h)
    · exact h

@[simp] theorem Work.endOpen_wf {w : Work} (h : w.store.wf = true) (r : Running) (p : Pocket) (g n : Nat) (b : Bool) :
    (w.endOpen r p g n b).store.wf = true := by
  unfold Work.endOpen
  dsimp only
  split <;> simp [h]

@[simp] theorem Work.meet_wf {w : Work} (h : w.store.wf = true) (f : Findings) : (w.meet f).store.wf = true :=
  Work.fail_wf h _

/-! ### The START scan and the patrol keep the form -/

theorem Work.startScan_wf {w : Work} (h : w.store.wf = true) : w.startScan.store.wf = true := by
  have withdraw (w : Work) (h : w.store.wf = true) (f) : (w.withdraw f).store.wf = true := by simp [Work.withdraw, h]
  have header : w.scanHeader.store.wf = true := by
    have : ((List.range 13).foldl (fun (w : Work) n => w.readWord n .scan true) w).store.wf = true :=
      foldl_wf _ (fun w n hw => Work.readWord_wf hw _ _ _) _ w h
    simpa only [Work.scanHeader] using this
  have mark (w : Work) (h : w.store.wf = true) : w.scanMark.store.wf = true := by
    unfold Work.scanMark; dsimp only; split <;> simp [h]
  have map (w : Work) (h : w.store.wf = true) (p) : (w.scanMapWord p).store.wf = true := by
    unfold Work.scanMapWord
    dsimp only
    repeat' split
    all_goals simp [h]
  have frame (w : Work) (h : w.store.wf = true) (b f) : (w.scanFrame b f).store.wf = true := by
    have body (w : Work) (h : w.store.wf = true) (l : List Nat) (g : Work → Nat → Nat) :
        (l.foldl (fun (w : Work) k => w.readWord (g w k) .scan true) w).store.wf = true :=
      foldl_wf _ (fun w n hw => Work.readWord_wf hw _ _ _) _ w h
    unfold Work.scanFrame
    dsimp only
    have read (b : Bool) := Work.readWord_wf h (frameWord w.geometry f 0) .scan b
    repeat' split
    · exact withdraw _ (read _) _
    · exact read _
    · exact withdraw _ (body _ (read _) _ fun w k => frameWord w.geometry f k) _
    · exact body _ (read _) _ fun w k => frameWord w.geometry f k
    · exact Work.writeFrameWord_wf (body _ (read _) _ fun w k => frameWord w.geometry f k) _ _ _
    · exact body _ (read _) _ fun w k => frameWord w.geometry f k
  have resolve (w : Work) (h : w.store.wf = true) (p b) : (w.resolve p b).store.wf = true := by
    unfold Work.resolve; dsimp only; repeat' split
    all_goals simp [h]
  have orphan (w : Work) (h : w.store.wf = true) (f) : (w.settleOrphan f).store.wf = true := by
    unfold Work.settleOrphan; dsimp only; repeat' split
    all_goals simp [h, withdraw]
  have scan (w : Work) (h : w.store.wf = true) : w.scanBody.store.wf = true := by
    have absent : (allPockets.foldl (fun (w : Work) p => if w.count ≤ p.val then w.setLinkState p .absent none else w) w).store.wf = true :=
      foldl_wf _ (fun w p hw => by split <;> simp [hw]) _ w h
    unfold Work.scanBody
    dsimp only
    have maps := foldl_wf (fun (w : Work) p => w.scanMapWord p) (fun w p hw => map w hw p) allPockets _ (mark _ absent)
    generalize List.foldl (fun (w : Work) p => w.scanMapWord p) _ allPockets = w1 at maps ⊢
    have frames := fun b l => foldl_wf (fun (w : Work) f => w.scanFrame b f) (fun w f hw => frame w hw b f) l w1 maps
    exact foldl_wf _ (fun w f hw => orphan w hw f) _ _ (foldl_wf _ (fun w p hw => resolve w hw p _) _ _ (frames _ _))
  unfold Work.startScan
  dsimp only
  split
  · split
    · rw [Work.enterPlan_store]; exact scan _ header
    · exact scan _ header
  · simpa using header

theorem Work.patrol_wf {w : Work} (h : w.store.wf = true) : w.patrol.store.wf = true := by
  have hw (x : StoreCtl) : ({ w with ctl := x } : Work).store.wf = true := h
  have header (w : Work) (h : w.store.wf = true) (n) : (w.patrolHeader n).store.wf = true := by
    unfold Work.patrolHeader
    dsimp only
    repeat' split
    all_goals try simp only [Work.markPart_store]
    · exact Work.readWord_wf h _ _ _
    · exact Work.readWord_wf (Work.failAfterWrite_wf (Work.writeFormat_wf (Work.readWord_wf h _ _ _) _) _) _ _ _
    · exact Work.readWord_wf (Work.failAfterWrite_wf (Work.writeFormat_wf (Work.readWord_wf h _ _ _) _) _) _ _ _
    · exact Work.readWord_wf (Work.failAfterWrite_wf (Work.writeMark_wf (Work.readWord_wf h _ _ _) _) _) _ _ _
    · exact Work.readWord_wf (Work.failAfterWrite_wf (Work.writeMark_wf (Work.readWord_wf h _ _ _) _) _) _ _ _
    · exact Work.readWord_wf (Work.failAfterWrite_wf (Work.writeSettingsWord_wf (Work.readWord_wf h _ _ _) _ _) _) _ _ _
    · exact Work.readWord_wf (Work.failAfterWrite_wf (Work.writeSettingsWord_wf (Work.readWord_wf h _ _ _) _ _) _) _ _ _
  have map (w : Work) (h : w.store.wf = true) (p) : (w.patrolMap p).store.wf = true := by
    unfold Work.patrolMap; dsimp only; split <;> simp [h]
  have frame (w : Work) (h : w.store.wf = true) (n f) : (w.patrolFrame n f).store.wf = true := by
    unfold Work.patrolFrame
    dsimp only
    repeat' split
    all_goals try simp [h]
    exact Work.writeHeader_wf (w := { w.readWord n .patrol true with ctl := _ }) (Work.readWord_wf h _ _ _) _ _
  unfold Work.patrol
  dsimp only
  repeat' split
  · exact h
  · exact header _ (hw _) _
  · exact map _ (hw _) _
  · exact frame _ (hw _) _ _

/-- The store of a part never formatted is in form. -/
theorem Store.unformatted_wf : Store.unformatted.wf = true := by decide

end Sys2Proof.Machine
end

