-- ==== Sys2Proof/Certificates/Slice0/Obligations.lean ====
section
/-! DEFINITION. The statements about the part, for the provers. -/

open Sys2Proof Sys2Proof.Machine

/-! ### The queue of commands and the forms of frames -/

/-- A step takes the command at the front of the queue. -/
def Obligations.StepTakesTheFrontCommand : Prop :=
  ∀ (c : Instr) (rest : List Instr) (s : State), s.pending = c :: rest → step s = exec c { s with pending := rest }

/-- The 22 request frames read back as the requests they carry (section 11.2, R179, R197). -/
def Obligations.RequestFramesReadBack : Prop := ∀ r : HostReq, reqFits r = true → readFrame (reqFrame r) = .request r

/-- R198: the check over the covered bytes and the CRC byte gives 0 exactly when the CRC agrees. A reply frame that a pocket
board sends as section 11.4 gives it is read as that reply, by a command that expects it (R84, R85). Received as bytes, which
log entry 5 gives to STATUS_ARRIVAL, such a reply acts as its own command does, and one that fails a test of R84 is
discarded; that a reply with bit 6 of its first byte set fails one is log entry 69. -/
def Obligations.CheckAndRepliesReadBack : Prop :=
  (∀ (bs : List Byte) (c : Byte), crc8 (bs ++ [c]) = 0 ↔ c = crc8 bs) ∧
  (∀ (p : Pocket) (k : CommandKind) (a b : Byte),
     readReply p .poll (withCrc [BitVec.ofNat 8 p.val, 0x81, a, b]) = some (.status (readStatus a b)) ∧
     (k ≠ .poll → readReply p k (withCrc [BitVec.ofNat 8 p.val, 0x82]) = some .ack) ∧
     (k ≠ .poll → readReply p k (withCrc [BitVec.ofNat 8 p.val, 0x83, 1]) = some (.notReady .doorOpen)) ∧
     (k ≠ .poll → readReply p k (withCrc [BitVec.ofNat 8 p.val, 0x83, 2]) = some (.notReady .lockout)) ∧
     (k ≠ .poll → readReply p k (withCrc [BitVec.ofNat 8 p.val, 0x83, 3]) = some (.notReady .busy)) ∧
     ∀ q : Pocket, q ≠ p → readReply q k (withCrc [BitVec.ofNat 8 p.val, 0x82]) = none) ∧
  (∀ (p : Pocket) (e : Entry) (a b : Byte) (bs : List Byte) (s : State), s.exchanging p e →
     let got (bs : List Byte) := exec (.statusArrival p (.bytes bs)) s
     let frame (bs : List Byte) := withCrc (BitVec.ofNat 8 p.val :: bs)
     (e.kind = .poll → got (frame [0x81, a, b]) = exec (.statusArrival p (.report (readStatus a b))) s) ∧
     (e.kind = .run → got (frame [0x82]) = exec (.runAck p) s) ∧
     (e.kind = .heatOn → got (frame [0x82]) = exec (.heatOnAck p) s) ∧
     (e.kind = .run ∨ e.kind = .heatOn → got (frame [0x83, 1]) = exec (.notReadyDoorOpen p) s ∧
       got (frame [0x83, 2]) = exec (.notReadyRetry p .lockout) s ∧ got (frame [0x83, 3]) = exec (.notReadyRetry p .busy) s) ∧
     (e.kind = .stop ∨ e.kind = .heatOff ∨ e.kind = .safe ∨ e.kind = .clearDoor →
       got (frame [0x82]) = exec (.postedReply p .ack) s ∧ got (frame [0x83, 1]) = exec (.postedReply p (.notReady .doorOpen)) s) ∧
     (crc8 bs ≠ 0 ∨ bs.length < 3 ∨ bs.head? ≠ some (BitVec.ofNat 8 p.val) → got bs = .next s))

/-- The bytes of a good request frame, taken as raw bytes, do what the request does (R179, R181). -/
def Obligations.RawRequestFrameIsTheRequest : Prop :=
  ∀ (c : Instr) (r : HostReq) (s : State), hostRequest c = some r → reqFits r = true →
    exec (.badFrame (reqFrame r)) s = exec c s

/-! ### The host port -/

/-- A REQUEST frame on a BUSY port is dropped, whatever it holds, and sets the dropped-request flag (R179). A FETCH shifts
out the response and takes it once all of it has been shifted; cut short, the response stays; without a response it reads
NOT_READY; the flag is cleared in each case (R180). -/
def Obligations.PortDropsAndShifts : Prop :=
  (∀ (c : Instr) (bytes : List Byte) (s : State), s.powered = true → s.port.state = .busy →
     ((hostRequest c).isSome = true ∨ c = .badFrame bytes ∨ c = .droppedRequest) →
     exec c s = .next { s with port := { s.port with dropped := true, shiftedStatus := s.statusByte, shiftedBody := [] } }) ∧
  (∀ (n : Nat) (s : State) (r : Response), s.powered = true →
     (s.port.state = .ready → s.port.response = some r → r.bytes.length ≤ n →
       exec (.fetch n) s = .next { s with port := { s.port with
         state := .idle, response := none, dropped := false, shiftedStatus := s.statusByte, shiftedBody := r.bytes } }) ∧
     (s.port.state = .ready → s.port.response = some r → n < r.bytes.length →
       exec (.fetch n) s = .next { s with port := { s.port with
         dropped := false, shiftedStatus := s.statusByte, shiftedBody := r.bytes.take n } }) ∧
     (s.port.state ≠ .ready →
       exec (.fetch n) s = .next { s with port := { s.port with
         dropped := false, shiftedStatus := s.statusByte, shiftedBody := (Response.bytes ⟨.notReady, []⟩).take n } }))

/-- What the part state alone answers, for every request (R181 step 3, section 9.2); a REQUEST frame that is incomplete, too
long or has a wrong CRC is answered BAD_FRAME, a complete one with an unknown code UNKNOWN, and one whose length suits no
form of its code BAD_FRAME (R179, R181 steps 1 and 2). -/
def Obligations.RequestsNotTakenAreAnswered : Prop :=
  (∀ (c : Instr) (r : HostReq) (s : State), hostRequest c = some r → s.hostReady → r ≠ .status →
     (s.part = .start ∨ s.part = .plan → exec c s = .next (s.answered .notReady [])) ∧
     (s.part = .save ∨ s.part = .dark → exec c s = .next (s.answered .powerFail [])) ∧
     (s.part = .active →
       (c = .leaveCommission ∨ (∃ g n, c = .format g n) ∨ ∃ i v, c = .setSetting i v) →
       exec c s = .next (s.answered .state [])) ∧
     (s.part = .commission →
       c ≠ .events → c ≠ .storeReport → c ≠ .clearLatch → c ≠ .leaveCommission → (∀ i, c ≠ .getSetting i) →
       (∀ g n, c ≠ .format g n) → (∀ i v, c ≠ .setSetting i v) → exec c s = .next (s.answered .state []))) ∧
  (∀ (code pocket len : Byte) (bytes payload : List Byte) (s : State), s.hostReady →
     (bytes.length < 3 → exec (.badFrame bytes) s = .next (s.answered .badFrame [])) ∧
     (24 < len.toNat ∨ payload.length ≤ len.toNat →
       exec (.badFrame (code :: pocket :: len :: payload)) s = .next (s.answered .badFrame [])) ∧
     (len.toNat ≤ 24 → len.toNat < payload.length → crc8 (code :: pocket :: len :: payload.take (len.toNat + 1)) ≠ 0 →
       exec (.badFrame (code :: pocket :: len :: payload)) s = .next (s.answered .badFrame [])) ∧
     (len.toNat = payload.length → payload.length ≤ 24 → code.toNat = 0 ∨ 22 < code.toNat →
       exec (.badFrame (withCrc (code :: pocket :: len :: payload))) s = .next (s.answered .unknown [])) ∧
     (len.toNat = payload.length → payload.length ≤ 24 → 1 ≤ code.toNat → code.toNat ≤ 22 →
       payload.length ∉ payloadLengths code.toNat →
       exec (.badFrame (withCrc (code :: pocket :: len :: payload))) s = .next (s.answered .badFrame [])))

/-- STATUS is answered in every part state; STORE_REPORT and GET_SETTING in ACTIVE and COMMISSION; none changes anything
but the port (R187, R188, R195). EVENTS returns the event set and empties it, so that ATN falls; CLEAR_LATCH empties the
error latch and the correctable count (R186, R188). -/
def Obligations.ReportsAnswerAndEventsEmpty : Prop :=
  (∀ (i : Nat) (s : State), s.hostReady →
     exec .status s = .next (s.answered .ok s.statusPayload) ∧
     (s.part = .active ∨ s.part = .commission →
       exec .storeReport s = .next (s.answered .ok s.storeReportPayload) ∧
       (1 ≤ i ∧ i ≤ 95 → exec (.getSetting i) s = .next (s.answered .ok (s.ctl.settingPayload i))) ∧
       (i = 0 ∨ 95 < i → exec (.getSetting i) s = .next (s.answered .range [])))) ∧
  (∀ s : State, s.hostReady → s.part = .active ∨ s.part = .commission →
     exec .events s = .next { s.answered .ok s.events.payload with events := EventSet.empty } ∧
     EventSet.empty.atn = false ∧
     exec .clearLatch s =
       .next { s.answered .ok [] with ctl := { s.ctl with latch := ErrorLatch.cleared, correctable := 0 } })

/-- HOLD clears the start enable flag of a pocket and returns whether it was set and whether the pocket holds a slot;
RELEASE and HOLD_MASK, which returns the mask as it stood, set flags again, and the winning request of those that the new
mask allows is granted a slot (R116, R117, R119, R120). A pocket of P or more is refused with RANGE (R181). -/
def Obligations.HoldAndReleaseSetTheMask : Prop :=
  ∀ (p : Pocket) (set clear : Mask) (s : State), s.hostReady → s.part = .active →
    let masked (m : Mask) : State := { s with arb := { s.arb with mask := m } }
    let grants (o : Host.Outcome State Fault Refusal) (m : Mask) : Prop := ∀ q n, (masked m).mayGrant = true → (masked m).wins q n →
      s.slotOf q = none → leads o fun t => t.request q = none ∧ t.slotOf q = some
        { pocket := q, stage := .awaitAck, level := n, timerMs := s.setting 10 * 100, carried := none, doorRefused := false }
    let both := (s.arb.mask ||| set) &&& ~~~ clear
    (p.val < s.count → exec (.hold p.val) s = .next
      { s.answered .ok (s.holdPayload p) with arb := { s.arb with mask := s.arb.mask.put p false } }) ∧
    (p.val < s.count → leads (exec (.release p.val) s) (fun t => t.offGrant =
        State.offGrant { s.answered .ok (s.holdPayload p) with arb := { s.arb with mask := s.arb.mask.put p true } }) ∧
      grants (exec (.release p.val) s) (s.arb.mask.put p true)) ∧
    (∀ n, 32 ≤ n ∨ s.count ≤ n → exec (.hold n) s = .next (s.answered .range []) ∧ exec (.release n) s = .next (s.answered .range [])) ∧
    (set &&& clear = 0 → (∀ q : Pocket, Mask.has (set ||| clear) q = true → q.val < s.count) →
      leads (exec (.holdMask set clear) s) (fun t => t.offGrant =
        State.offGrant { s.answered .ok (maskBytes s.arb.mask) with arb := { s.arb with mask := both } }) ∧
      (set ≠ 0 → grants (exec (.holdMask set clear) s) both) ∧
      (set = 0 → exec (.holdMask set clear) s = .next
        { s.answered .ok (maskBytes s.arb.mask) with arb := { s.arb with mask := s.arb.mask &&& ~~~ clear } })) ∧
    (set &&& clear ≠ 0 ∨ (∃ q : Pocket, Mask.has (set ||| clear) q = true ∧ s.count ≤ q.val) →
      exec (.holdMask set clear) s = .next (s.answered .range []))

/-- CLEAR_POCKET returns a pocket in FAULT or OFFLINE to UNKNOWN with a LINK event, and is refused with STATE for one in
ONLINE or UNKNOWN, and with RANGE for a pocket of P or more (R91, R189). That its entries stay in the link queue is log entry
73, and that a probe is owed no more is log entry 76. -/
def Obligations.ClearPocketReturnsToUnknown : Prop :=
  ∀ (p : Pocket) (n : Nat) (s : State), s.hostReady → s.part = .active →
    let l := s.pocketLink p
    (p.val < s.count →
      (l.state = .fault ∨ l.state = .offline →
        exec (.clearPocket p.val) s = .next { State.marked (s.answered .ok []) .link p with
          link := { s.link with pockets := upd s.link.pockets p { l with
            state := .unknown, cause := none, safeOwed := false, startAttempts := 0, offlineMs := none, probeOwed := false } } }) ∧
      (l.state = .online ∨ l.state = .unknown → exec (.clearPocket p.val) s = .next (s.answered .state []))) ∧
    (32 ≤ n ∨ s.count ≤ n → exec (.clearPocket n) s = .next (s.answered .range []))

/-- REMAP, FORMAT and SET_SETTING enqueue their store operation and keep the port BUSY; out of range each is refused with
RANGE, and REMAP is refused with STATE where R39 says (R189, R193, R194). -/
def Obligations.CommissionAndRemapWritesAreQueued : Prop :=
  ∀ (p : Pocket) (i v n : Nat) (s : State), s.hostReady →
    (s.part = .active → p.val < s.count →
      exec (.remap p.val) s = .next
        (if s.ctl.mapFault.has p = true ∧ s.ctx p = none then (s.taken (.remap p.val)).queues (.remap p) else s.answered .state [])) ∧
    (s.part = .active → 32 ≤ n ∨ s.count ≤ n → exec (.remap n) s = .next (s.answered .range [])) ∧
    (s.part = .commission →
      (1 ≤ n ∧ n ≤ 16 → exec (.format 0 n) s = .next ((s.taken (.format 0 n)).queues (.format .standard n))) ∧
      (1 ≤ n ∧ n ≤ 32 → exec (.format 1 n) s = .next ((s.taken (.format 1 n)).queues (.format .compact n))) ∧
      (n = 0 ∨ 16 < n → exec (.format 0 n) s = .next (s.answered .range [])) ∧
      (n = 0 ∨ 32 < n → exec (.format 1 n) s = .next (s.answered .range [])) ∧
      (1 < i → exec (.format i n) s = .next (s.answered .range [])) ∧
      (1 ≤ i ∧ i ≤ 95 ∧ itemLow i ≤ v ∧ v ≤ itemHigh i →
        exec (.setSetting i v) s = .next (State.queues { s.taken (.setSetting i v) with
          ctl := { s.ctl with settings := s.ctl.settings.withItem i v } } (.settingsWrite i))) ∧
      (i = 0 ∨ 95 < i ∨ v < itemLow i ∨ itemHigh i < v → exec (.setSetting i v) s = .next (s.answered .range [])))

/-- ENTER_COMMISSION is refused with STATE while a context exists or the store has work; otherwise the part goes to
COMMISSION, the arbiter's requests and slots, the heat budget unit and the throttle are cleared, and SAFE is broadcast
(R191, R192). That no THROTTLE mark is set and the stopped sag timers are 0 is the model's (log entries 67 and 68). -/
def Obligations.EnterCommissionClearsTheArbiters : Prop :=
  ∀ s : State, s.hostReady → s.part = .active →
    (s.contextCount ≠ 0 ∨ s.ctl.current ≠ none ∨ s.ctl.queue ≠ [] → exec .enterCommission s = .next (s.answered .state [])) ∧
    (s.contextCount = 0 → s.ctl.current = none → s.ctl.queue = [] →
      leads (exec .enterCommission s) fun t =>
        t.offLink = State.offLink { State.markedPart (s.answered .ok []) .stateChange with part := .commission, sag := SagThrottle.reset } ∧
        t.arb = { s.arb with requests := Vector.replicate 32 none, slots := [] } ∧ t.heat = HeatUnit.reset ∧ t.ctl = s.ctl ∧
        (s.inFlight = none → t.link.queue = [{ Entry.fresh none .safe with state := .inFlight }] ∧
          t.link.sent = Entry.bytes (Entry.fresh none .safe)) ∧
        (s.inFlight ≠ none → t.link.queue = Entry.fresh none .safe :: s.link.queue.filter (·.state == .inFlight)))

/-- LEAVE_COMMISSION is refused with STATE until every commission item is GOOD; then every block but the host port and the
supply supervisor takes its values after a reset, and the part goes to START (R196). -/
def Obligations.LeaveCommissionResetsTheBlocks : Prop :=
  ∀ s : State, s.hostReady → s.part = .commission →
    (s.ctl.formatBad = true ∨ s.ctl.wordBad.contains true = true ∨ s.ctl.itemBad.contains true = true →
      exec .leaveCommission s = .next (s.answered .state [])) ∧
    (s.ctl.formatBad = false → s.ctl.wordBad.contains true = false → s.ctl.itemBad.contains true = false →
      exec .leaveCommission s = .next { State.markedPart (s.answered .ok []) .stateChange with
        part := .start, ctl := StoreCtl.reset, ctxs := noContexts, link := LinkCtl.reset, arb := Arbiter.reset
        heat := HeatUnit.reset, sag := SagThrottle.reset, plan := Planner.reset })

/-! ### Requests on a record -/

/-- A request on a record is enqueued for its translation read, and the port stays BUSY (R38); a pocket of P or more is
refused with RANGE, and a map-faulted one answered MAP_FAULT, but for RETIRE of a record that has a context (R23, R39). -/
def Obligations.RecordRequestsAwaitTranslation : Prop :=
  ∀ (c : Instr) (r : HostReq) (n : Nat) (p : Pocket) (s : State), recordRequest c = some (r, n) → s.hostReady → s.part = .active →
    (32 ≤ n ∨ s.count ≤ n → exec c s = .next (s.answered .range [])) ∧
    (n = p.val → n < s.count →
      (s.ctl.mapFault.has p = false → exec c s = .next ((s.taken r).queues (.translation r))) ∧
      (s.ctl.mapFault.has p = true → c ≠ .retire n ∨ s.ctx p = none → exec c s = .next (s.answered .mapFault [])))

/-- START: a STAGED record goes to HEAT, or at once on to COOL when it has no heat time; a record in HEAT held DOOR,
RESUME_ASK, HEAT_FAULT, or LINK with its pocket ONLINE, loses the hold; a start is wanted at level 7, or at the resume
level; any other record is refused with STATE (R6, R25). -/
def Obligations.StartSetsTheLoadGoing : Prop :=
  ∀ (p : Pocket) (c : Context) (s : State), s.reaches (.start p.val) p c → c.fast.status ≠ .pending →
    (c.fast.phase = .staged → c.fast.hold = .none → c.fast.heat ≠ 0 →
      leads (exec (.translationReadEnd noFailures) s) fun t =>
        t.offGrant = State.offGrant (((s.storeFreed.withCtx p
          (some (s.due p (c.change fun f => { f with phase := .heat })))).marked .phase p).replied .ok []) ∧
        t.wantsStart p (s.requestLevel p 7)) ∧
    (c.fast.phase = .staged → c.fast.hold = .none → c.fast.heat = 0 → c.fast.status = .none →
      leads (exec (.translationReadEnd noFailures) s) fun t =>
        t.offGrant = State.offGrant (((s.storeFreed.withCtx p (some (s.due p
          { (c.change fun f => { f with phase := .heat }).change (fun f => { f with phase := .cool }) with awaitCool := true }))).marked
            .phase p).replied .ok []) ∧
        t.wantsStart p 7) ∧
    (c.fast.phase = .heat →
      c.fast.hold = .door ∨ c.fast.hold = .resumeAsk ∨ c.fast.hold = .heatFault ∨ (c.fast.hold = .link ∧ (s.pocketLink p).state = .online) →
      leads (exec (.translationReadEnd noFailures) s) fun t =>
        t.offGrant = State.offGrant (((s.storeFreed.withCtx p
          (some (s.due p (c.change fun f => { f with hold := .none })))).marked .hold p).replied .ok []) ∧
        t.wantsStart p (s.requestLevel p 7)) ∧
    (c.fast.phase = .cool ∨ c.fast.phase = .crease ∨ c.fast.phase = .done ∨ (c.fast.phase = .heat ∧ c.fast.hold = .none) ∨
        (c.fast.phase = .heat ∧ c.fast.hold = .damaged) ∨
        (c.fast.phase = .heat ∧ c.fast.hold = .link ∧ (s.pocketLink p).state ≠ .online) →
      exec (.translationReadEnd noFailures) s = .next (s.storeFreed.replied .state []))

/-- R26: EXTEND, on a record in STAGED or HEAT whatever holds or resumes it, clamps the addition and the sum to 7,200 s, is
answered OK_CLAMPED where either was clamped, and changes nothing but the heat remaining, which joins the dirty set and is
among the words of the next checkpoint; in COOL, CREASE or DONE it is refused with STATE. -/
def Obligations.ExtendAddsPaidSeconds : Prop :=
  ∀ (p : Pocket) (n : Nat) (c : Context) (s : State), s.reaches (.extend p.val n) p c →
    let d := c.change fun f => { f with heat := min 7200 (f.heat + min 7200 n) }
    (c.fast.phase = .staged ∨ c.fast.phase = .heat →
      exec (.translationReadEnd noFailures) s = .next ((s.storeFreed.withCtx p (some d)).replied
        (if n ≤ 7200 ∧ c.fast.heat + n ≤ 7200 then .ok else .okClamped) [])) ∧
    (d.fast.heat ≠ c.fast.heat → d.dirty.has 3 = true ∧ .merge 2 ∈ checkpointTodo s.geometry d) ∧
    (c.fast.phase = .cool ∨ c.fast.phase = .crease ∨ c.fast.phase = .done →
      exec (.translationReadEnd noFailures) s = .next (s.storeFreed.replied .state []))

/-- END_HEAT takes a record in HEAT to COOL, its cool length still to be read; a RESUME_ASK or HEAT_FAULT hold clears and
a start is wanted; a REHEAT resumption ends; in any other phase it is refused with STATE (R7, R27, R175). -/
def Obligations.EndHeatGoesToCool : Prop :=
  ∀ (p : Pocket) (c : Context) (s : State), s.reaches (.endHeat p.val) p c → c.fast.status ≠ .pending → s.waitsOnItsPhase p →
    let clears := c.fast.hold == .resumeAsk || c.fast.hold == .heatFault
    let c1 := if clears then c.change fun f => { f with hold := .none } else c
    let c2 : Context := { c1.change (fun f => { (if f.reheating then f.endResume else f) with phase := .cool }) with awaitCool := true }
    (c.fast.phase = .heat →
      leads (exec (.translationReadEnd noFailures) s) fun t =>
        t.offGrant = State.offGrant (((((s.storeFreed.withCtx p (some (s.due p c2))).markedIf clears .hold p).marked .phase p).markedIf
          c.fast.reheating .resume p).replied .ok []) ∧
        t.hasReservation p = false ∧ (clears = true → t.wantsStart p 0)) ∧
    (c.fast.phase ≠ .heat → exec (.translationReadEnd noFailures) s = .next (s.storeFreed.replied .state []))

/-- SET_HEAT, SET_OPTIONS and LOOKUP enqueue their store operation once they have reached the record, and OPEN once it has
found none, with its values clamped and the generation advanced by one (R24, R28, R29, R67). -/
def Obligations.RequestsThatNeedTheFrameAreQueued : Prop :=
  ∀ (p : Pocket) (n : Nat) (a b : Byte) (x : OpenArgs) (c : Context) (e : MapEntry) (s : State),
    (s.reaches (.setHeat p.val n) p c → c.fast.status ≠ .pending →
      exec (.translationReadEnd noFailures) s =
        .next (s.storeFreed.queues (.staticWrite p (.level (max 1 (min 3 n))) (n == 0 || decide (3 < n))))) ∧
    (s.reaches (.setOptions p.val a b) p c → c.fast.status ≠ .pending →
      exec (.translationReadEnd noFailures) s =
        .next (if a &&& b &&& 7 = 0 then s.storeFreed.queues (.staticWrite p (.options (Options.ofByte a) (Options.ofByte b)) false)
          else s.storeFreed.replied .range [])) ∧
    (s.reaches (.lookup p.val) p c →
      exec (.translationReadEnd noFailures) s = .next (s.storeFreed.queues (.lookupRead p
        { gen := c.gen, fast := c.fast, shadow := c.shadow, writeOpen := c.checkpoint == .writing }))) ∧
    (s.translating (.openRecord p.val x) p e → e.valid = false →
      exec (.translationReadEnd noFailures) s = .next (s.storeFreed.queues (.openRecord p
        (if e.gen < 65535 then e.gen + 1 else 1) (openStatics s.geometry x) (min 7200 x.heat) (openClamped s.geometry x))))

/-- RETIRE drops the record's context and its waiting checkpoint, move and static read, its request, its reservation and its
place in the wait list, sets a RETIRED event and enqueues the retire operation (R11, R30, R57); on a map-faulted pocket whose
record has a context it does so at once, without a translation (R39). -/
def Obligations.RetireDropsTheRecord : Prop :=
  (∀ (p : Pocket) (c : Context) (s : State), s.reaches (.retire p.val) p c → s.waitsOnItsPhase p →
    leads (exec (.translationReadEnd noFailures) s) fun t =>
      t.offGrant = ((s.storeFreed.withCtx p none).marked .retired p).offGrant ∧ t.retiring p (.retire p c.frame c.pinned true)) ∧
  (∀ (p : Pocket) (c : Context) (s : State), s.hostReady → s.part = .active → p.val < s.count → s.ctl.mapFault.has p = true →
    s.ctx p = some c → s.waitsOnItsPhase p → (∀ r, s.ctl.current = some r → r.op.worksFor p = false) →
    leads (exec (.retire p.val) s) fun t =>
      t.offGrant = (((s.taken (.retire p.val)).withCtx p none).marked .retired p).offGrant ∧
      t.retiring p (.retire p c.frame c.pinned true))

/-- What translation refuses: NO_RECORD without a live record, EXISTS for OPEN of a live one, STATE for a PENDING record
but for LOOKUP, EXTEND and RETIRE; a map word that cannot be read is first repaired, by an operation that joins the tail of
the queue (log entry 18), and a correctable one is written back, counted and latched (R23, R33, R38). -/
def Obligations.TranslationRefusesAndRepairs : Prop :=
  ∀ (r : HostReq) (p : Pocket) (e : MapEntry) (s : State),
    (s.translating r p e → (∀ q a, r ≠ .openRecord q a) → e.valid = false ∨ s.ctx p = none →
      exec (.translationReadEnd noFailures) s = .next (s.storeFreed.replied .noRecord [])) ∧
    (s.translating r p e → (∃ q a, r = .openRecord q a) → e.valid = true →
      exec (.translationReadEnd noFailures) s = .next (s.storeFreed.replied .exists [])) ∧
    (∀ c, s.reaches r p c → c.fast.status = .pending → (∀ q a, r ≠ .openRecord q a) → (∀ q, r ≠ .lookup q) →
      (∀ q n, r ≠ .extend q n) → (∀ q, r ≠ .retire q) →
      exec (.translationReadEnd noFailures) s = .next (s.storeFreed.replied .state [])) ∧
    (s.powered = true → s.part = .active → s.serving (.translation r) [.readMap] → reqPocket r = some p →
      s.store.flaw (mapWord p) = some .uncorrectable → s.ctl.latch.state = .uncorrectable →
      exec (.translationReadEnd noFailures) s = .next (s.storeFreed.queues (.mapRepair r p))) ∧
    (∀ x, s.powered = true → s.part = .active → s.serving (.translation (.extend p.val x)) [.readMap] → s.storeWf →
      s.store.flaw (mapWord p) = some .correctable →
      leads (exec (.translationReadEnd noFailures) s) fun t =>
        t.store.flaw (mapWord p) = none ∧ t.ctl.correctable = min 65535 (s.ctl.correctable + 1) ∧ t.ctl.latch.state ≠ .empty)

/-! ### Store operations -/

/-- The oldest operation is served when the store is idle, with the accesses its rule gives, and a service command that finds
nothing to serve changes nothing (log entry 5). OPEN takes the frame at the head of the free list, or is answered NO_FRAME; a
host request whose record is gone is answered NO_RECORD (log entry 19), and a static write of a pinned record STORE_FAULT. A
move that finds no free frame leaves its record pinned, and a checkpoint of a pinned or clean record is dropped (R40, R42 to
R44, R62, R63). That a move that waited reads every static word is log entry 63, and that
it leaves the checkpoint state is log entry 72. -/
def Obligations.OldestOperationIsServed : Prop :=
  ∀ (op : StoreOp) (rest : List StoreOp) (p : Pocket) (s : State), s.powered = true → s.part = .active →
    let served := exec .storeOperationServe s
    (s.ctl.current ≠ none ∨ s.ctl.queue = [] → served = .next s) ∧
    (s.ctl.current = none → s.ctl.queue = op :: rest →
      (∀ todo, accessesOf op = some todo → served = .next (s.begins rest (Running.of op todo))) ∧
      (∀ gen args heat clamped, op = .openRecord p gen args heat clamped →
        (∀ f more, s.ctl.free = f :: more → served = .next
          (State.begins { s with ctl := { s.ctl with free := more } } rest { Running.of op (openTodo s.geometry) with target := f })) ∧
        (s.ctl.free = [] → served = .next (State.replied { s with ctl := { s.ctl with queue := rest } } .noFrame []))) ∧
      (s.ctx p = none → (∃ change clamped, op = .staticWrite p change clamped) ∨ (∃ copy, op = .lookupRead p copy) →
        served = .next (State.replied { s with ctl := { s.ctl with queue := rest } } .noRecord [])) ∧
      (∀ c, s.ctx p = some c →
        (∀ why, op = .staticRead p why → why ≠ [.heatLevel] →
          served = .next (s.begins rest (Running.of op ((staticWords s.geometry).map Access.readStatic)))) ∧
        (op = .staticRead p [.heatLevel] → served = .next (s.begins rest (Running.of op [.readStatic 1]))) ∧
        (∀ copy, op = .lookupRead p copy →
          served = .next (s.begins rest (Running.of op ((staticWords s.geometry).map Access.readStatic)))) ∧
        (∀ change clamped, op = .staticWrite p change clamped →
          served = .next (if c.pinned then State.replied { s with ctl := { s.ctl with queue := rest } } .storeFault []
            else s.begins rest (Running.of op [.staticMerge]))) ∧
        (op = .checkpoint p → c.pinned = false → c.dirty ≠ 0 → served = .next
          ((s.withCtx p (some { c with checkpoint := .writing })).begins rest (Running.of op (checkpointTodo s.geometry c)))) ∧
        (op = .checkpoint p → c.pinned = true ∨ (c.dirty = 0 ∧ c.stampPending = false) → served = .next
          (State.withCtx { s with ctl := { s.ctl with queue := rest } } p
            (some (c.rested (s.setting 1) (rest.any (·.isCheckpointOf p)))))) ∧
        (∀ f, op = .move p f false → c.frame = f → s.ctl.free = [] → c.pinned = false →
          s.store.flaw (frameWord s.geometry f 1) = none → served = .next (State.markedPart
            (State.withCtx { s with ctl := { s.ctl with queue := rest } } p (some { c with pinned := true })) .store)) ∧
        (∀ f target more, op = .move p f false → c.frame = f → s.ctl.free = target :: more →
          leads served fun t => t.movingTo p f target ∧ t.ctl.free = more ∧ t.ctl.queue = rest ∧ t.store = s.store ∧ t.ctxs = s.ctxs)))

/-- A static read ends with the static fields of its frame: LOOKUP is answered with the record image, a HEAT exit gets
its cool length, and a HEAT_ON that waits for it its level (R22, R45, R67). The read of a cool exit sets up the crease progress,
or takes the record on to DONE with crease off, and a cool length of 0 takes the cool exit with the same read (R7, R8, R71,
R77; that a hold and a resumption are dropped there too is log entry 14). -/
def Obligations.StaticReadsGiveTheirFields : Prop :=
  ∀ (p : Pocket) (c : Context) (copy : LookupCopy) (s : State), s.powered = true → s.part = .active → s.ctx p = some c →
    s.frameClean c.frame →
    let x := s.store.frame c.frame
    let plan := s.effectivePlan x.statics.plan
    let whole := (staticWords s.geometry).map Access.readStatic
    let ended := exec (.staticReadEnd noFailures) s
    let entered : Context :=
      { c.change (fun f => { f with cool := 0 }) with awaitCool := false }.change fun f => { f with phase := .crease, progress := none }
    (s.serving (.lookupRead p copy) whole →
      ended = .next (s.storeFreed.replied .ok
        (imageBytes s.geometry p.val copy.gen x.statics copy.fast copy.shadow copy.writeOpen c.pinned))) ∧
    (s.serving (.staticRead p [.heatExit]) whole → c.fast.phase = .cool → c.awaitCool = true →
      (x.coolLength ≠ 0 →
        ended = .next (s.storeFreed.withCtx p (some { c.change (fun f => { f with cool := x.coolLength }) with awaitCool := false }))) ∧
      (x.coolLength = 0 → leads ended fun t => t.request p = none ∧ t.offGrant = State.offGrant
        (if creaseOn x.options plan then s.storeFreed.withCtx p (some (s.due p (entered.creased plan)))
          else s.storeFreed.creaseLeft p entered))) ∧
    (s.serving (.staticRead p [.coolExit]) whole → c.fast.phase = .crease → c.fast.progress = none →
      leads ended fun t => t.offGrant = State.offGrant
        (if creaseOn x.options plan then s.storeFreed.withCtx p (some (c.creased plan)) else s.storeFreed.creaseLeft p c)) ∧
    (s.serving (.staticRead p [.heatLevel]) [.readStatic 1] → (s.pocketLink p).state = .online → s.heatDesired p = true →
      s.hasReservation p = true → (s.pocketLink p).heatLost = false →
      (∃ e ∈ s.link.queue, e.isFor p = true ∧ e.kind = .heatOn ∧ e.level = none) →
      ended = .next { s.storeFreed.withCtx p (some { c with heatLevel := some x.level }) with
        link := { s.link with
          queue := s.link.queue.map fun e =>
            if e.isFor p && e.kind == .heatOn && e.level.isNone then { e with level := some x.level } else e } })

/-- SET_HEAT and SET_OPTIONS write their one field into the static word and leave the rest of the frame, its header and
the dirty set as they stand; a new heat level is desired at once, and NO_CREASE added in CREASE ends the crease (R28,
R29, R65), between the cool exit and its read as well (log entry 64). -/
def Obligations.StaticWritesChangeOneField : Prop :=
  ∀ (p : Pocket) (c : Context) (n : Nat) (set clear : Options) (clamped : Bool) (s : State), s.powered = true →
    s.part = .active → s.ctx p = some c → s.store.flaw (frameWord s.geometry c.frame 1) = none →
    let x := s.store.frame c.frame
    let ended := exec (.staticWriteEnd noFailures) s
    let answer : Result := if clamped then .okClamped else .ok
    (s.serving (.staticWrite p (.level n) clamped) [.staticMerge] →
      leads ended fun t => t.offLink = State.offLink (((s.storeFreed.withFrame c.frame { x with level := n }).withCtx p
        (some { c with heatLevel := c.heatLevel.map fun _ => n })).replied answer [])) ∧
    (s.serving (.staticWrite p (.options set clear) clamped) [.staticMerge] →
      (c.fast.phase ≠ .crease ∨ set.noCrease = false → ended = .next
        ((s.storeFreed.withFrame c.frame { x with options := x.options.change set clear }).replied answer [])) ∧
      (c.fast.phase = .crease → set.noCrease = true → leads ended fun t =>
        t.offGrant = State.offGrant (((s.storeFreed.withFrame c.frame { x with options := x.options.change set clear }).creaseOver
          p c).replied answer [])))

/-- A checkpoint timer at 0 is loaded again when nothing is dirty, enqueues a checkpoint of an IDLE context, and rests
while one is QUEUED or WRITING (R60). A checkpoint writes every dirty field into the frame, merged with the rest of each
word, closes the header with the uptime as its stamp, empties the dirty set and loads the timer (R60, R62). -/
def Obligations.CheckpointsFallDueAndWrite : Prop :=
  (∀ (p : Pocket) (c : Context) (s : State), s.powered = true → s.part = .active → s.ctx p = some c → c.timer = 0 →
     (c.dirty = 0 → exec (.checkpointTimerExpiry p) s = .next (s.withCtx p (some { c with timer := s.setting 1 }))) ∧
     (c.dirty ≠ 0 → c.checkpoint = .idle → s.checkpointQueued p = false → exec (.checkpointTimerExpiry p) s =
       .next ((s.withCtx p (some { c with checkpoint := .queued })).queues (.checkpoint p))) ∧
     (c.dirty ≠ 0 → c.checkpoint ≠ .idle → exec (.checkpointTimerExpiry p) s = .next s)) ∧
  (∀ (p : Pocket) (c : Context) (s : State), s.powered = true → s.part = .active → s.ctx p = some c → c.frame < 48 →
     s.frameClean c.frame → c.pinned = false → c.stampPending = false → c.dirty &&& ~~~ (allFields s.geometry) = 0 →
     s.serving (.checkpoint p) (checkpointTodo s.geometry c) →
     let x := s.store.frame c.frame
     exec (.checkpointEnd noFailures) s = .next ((s.storeFreed.withFrame c.frame
       { x with header := c.header p false c.shadow.saved s.sup.uptime, fast := Fast.blend c.dirty c.fast x.fast }).withCtx p
         (some (c.written s.sup.uptime (s.setting 1) c.shadow.saved (s.checkpointQueued p)))))

/-- A save write is the same write with saved-at-outage set (R146); the record's context is then clean, and the report
counts it. -/
def Obligations.SaveWriteKeepsTheRecord : Prop :=
  ∀ (p : Pocket) (c : Context) (s : State), s.powered = true → s.part = .save → s.ctx p = some c → c.frame < 48 →
    s.frameClean c.frame → c.pinned = false → c.stampPending = false → c.dirty &&& ~~~ (allFields s.geometry) = 0 →
    s.serving (.saveWrite p) (checkpointTodo s.geometry c) →
    let x := s.store.frame c.frame
    leads (exec (.saveWriteEnd noFailures) s) fun t =>
      t.store = s.store.setFrame c.frame
        { x with header := c.header p false true s.sup.uptime, fast := Fast.blend c.dirty c.fast x.fast } ∧
      t.ctx p = some (c.written s.sup.uptime (s.setting 1) true (s.checkpointQueued p)) ∧
      t.port = s.port ∧ (∀ q, (t.ctx q).map (·.fast) = (s.ctx q).map (·.fast)) ∧
      (s.sup.save.opAtWarning = false → s.ctl.queue = [] → s.sup.settled = false →
        (s.sup.save.charged < s.setting 6 → (∀ q d, q ≠ p → s.ctx q = some d → d.eligible = false) →
          t.part = .dark ∧ t.sup.report.map (·.written) = some (s.sup.save.written + 1) ∧ t.sup.report.map (·.unsaved) = some 0) ∧
        (s.setting 6 ≤ s.sup.save.charged →
          t.part = .dark ∧ t.sup.report.map (·.written) = some (s.sup.save.written + 1)))

/-- A move writes the record whole into its new frame, then the map entry, then the old frame's header QUARANTINED; the
context names the new frame with nothing dirty (R42, R46). The record is then desired at the heat level that the move read
(log entry 45). That a move which writes no commit leaves the checkpoint state is log entry 72. -/
def Obligations.MoveCopiesTheRecord : Prop :=
  ∀ (p : Pocket) (c : Context) (new : Nat) (s : State), s.powered = true → s.part = .active → s.ctx p = some c →
    c.frame < 48 → new < 48 → c.frame ≠ new → s.frameClean c.frame → s.frameClean new → s.store.flaw (mapWord p) = none →
    s.ctl.mapFault.has p = false → c.stampPending = false → c.dirty &&& ~~~ (allFields s.geometry) = 0 → s.movingTo p c.frame new →
    let x := s.store.frame c.frame
    let e : MapEntry := ⟨true, new, (s.ctl.mirror[p]).gen⟩
    let head : Header := { state := .live, writeOpen := false, saved := x.header.saved, pocket := p.val, gen := e.gen, stamp := s.sup.uptime }
    let y := Frame.rewritten s.geometry { x with header := head, fast := c.fast } (s.store.frame new)
    let t1 := ((s.storeFreed.withFrame new y).withFrame c.frame
      { x with header := { x.header with state := .quarantined, writeOpen := false, saved := false } }).withMap p e
    let d := { c with frame := new, pinned := false, dirty := 0, since := 0, commitMove := false, heatLevel := c.heatLevel.map fun _ => x.level
                      shadow := { stamp := s.sup.uptime, plan := x.stamp, saved := x.header.saved } }
    leads (exec (.moveEnd noFailures) s) fun t =>
      t.offLink = State.offLink (State.markedPart { t1.withCtx p (some d) with
        ctl := { t1.ctl with quarantine := t1.ctl.quarantine ||| BitVec.twoPow 48 c.frame } } .store)

/-- OPEN writes its frame whole, then its header, then the map entry; with a good read-back the context is created and
the new generation returned, otherwise MAP_FAULT is answered and the frame goes back to the tail of the free list (R3,
R24, R44, R55). -/
def Obligations.OpenCreatesTheRecord : Prop :=
  ∀ (p : Pocket) (gen heat f : Nat) (args : Statics) (clamped : Bool) (s : State), s.powered = true → s.part = .active →
    f < 48 → s.frameClean f → s.store.flaw (mapWord p) = none → s.ctl.mapFault.has p = false → s.nonePinned →
    s.ctl.current = some { Running.of (.openRecord p gen args heat clamped) (openTodo s.geometry) with target := f } →
    let fast : Fast := { Fast.zero with heat := heat, temp := s.setting 18 }
    let head : Header := { state := .live, writeOpen := false, saved := false, pocket := p.val, gen := gen, stamp := s.sup.uptime }
    let x : Frame := { header := head, level := args.level, options := args.options, coolLength := args.coolLength
                       plan := args.plan, fast := fast, stamp := none }
    let c : Context :=
      { gen := gen, frame := f, fast := fast, dirty := 0, since := 0, shadow := ⟨s.sup.uptime, none, false⟩, timer := s.setting 1
        checkpoint := .idle, pinned := false, tumbleLeft := none, awaitCool := false, tumbleGranted := false, interval := 0
        length := 0, heatLevel := none, stampPending := false, commitMove := false }
    leads (exec (.openOperationEnd noFailures) s) (fun t => t.offLink = State.offLink
      ((((s.storeFreed.withFrame f (x.rewritten s.geometry (s.store.frame f))).withMap p ⟨true, f, gen⟩).withCtx p (some c)).replied
        (if clamped then .okClamped else .ok) (beBytes 2 gen))) ∧
    leads (exec (.openOperationEnd ⟨[], [(mapWord p, .uncorrectable)]⟩) s) fun t =>
      t.ctx p = s.ctx p ∧ t.ctl.mapFault.has p = true ∧ t.port.response = some ⟨.mapFault, []⟩ ∧ t.events.store = true ∧
      t.ctl.mirror[p] = ⟨false, 0, gen⟩ ∧ t.ctl.free = s.ctl.free ++ [f] ∧ (t.store.frame f).header.state = .free ∧
      t.store.flaw (mapWord p) = some .uncorrectable

/-- A retirement writes the map entry invalid with its generation kept, then frees the frame, or withdraws that of a
pinned record, and last writes the frame's header so; RETIRE is then answered (R11, R30, R39, R44). A frame that becomes free
has a move enqueued for the pinned record of lowest pocket that has none (R43). -/
def Obligations.RetirementFreesTheFrame : Prop :=
  ∀ (p : Pocket) (f : Nat) (pinned host : Bool) (s : State), s.powered = true → s.part = .active →
    (s.serving (.retire p f pinned host) [.retireMap, .retireHeader] → s.store.flaw (mapWord p) = none → s.nonePinned →
      let t1 := (State.begins s s.ctl.queue (Running.of (.retire p f pinned host) [.retireHeader])).withMap p ⟨false, 0, (s.ctl.mirror[p]).gen⟩
      let t2 := if s.ctl.mapFault.has p then State.markedPart { t1 with ctl := { t1.ctl with mapFault := s.ctl.mapFault.put p false } } .store else t1
      exec (.retireMapWriteEnd noFailures) s = .next
        (if pinned then State.markedPart { t2 with ctl := { t2.ctl with quarantine := s.ctl.quarantine ||| BitVec.twoPow 48 f } } .store
          else { t2 with ctl := { t2.ctl with free := s.ctl.free ++ [f] } })) ∧
    (s.serving (.retire p f false host) [.retireMap, .retireHeader] → s.store.flaw (mapWord p) = none →
      ∀ q c, s.ctx q = some c → c.pinned = true → (s.ctl.queue.any (·.isMoveOf q)) = false →
        (∀ r d, r < q → s.ctx r = some d → d.pinned = false) →
        leads (exec (.retireMapWriteEnd noFailures) s) fun t => t.ctl.free = s.ctl.free ++ [f] ∧
          t.ctl.queue = s.ctl.queue ++ [.move q c.frame false] ∧ t.ctl.mirror[p] = ⟨false, 0, (s.ctl.mirror[p]).gen⟩) ∧
    (s.serving (.retire p f pinned host) [.retireHeader] → s.store.flaw (frameWord s.geometry f 0) = none →
      let x := s.store.frame f
      let t1 := s.storeFreed.withFrame f { x with header :=
        { x.header with state := if pinned then .quarantined else .free, writeOpen := false, saved := false } }
      exec (.retireOperationEnd noFailures) s = .next (if host then t1.replied .ok [] else t1))

/-- REMAP writes the entry invalid with the mirror's generation and a good read-back ends the map fault; a failed one
leaves it. A map repair rewrites the entry from the mirror, and the request it served goes on, or is answered MAP_FAULT
(R37, R38, R39). Either write makes the map word read clean, in whatever condition it was before (R33). -/
def Obligations.MapWordsAreRewritten : Prop :=
  ∀ (p : Pocket) (r : HostReq) (s : State), s.powered = true → s.part = .active → s.storeWf →
    let failing : Findings := ⟨[], [(mapWord p, .uncorrectable)]⟩
    (s.serving (.remap p) [.writeMap] →
      let t1 := s.storeFreed.mapWritten p ⟨false, 0, (s.ctl.mirror[p]).gen⟩
      (s.ctl.mapFault.has p = true → exec (.remapWriteEnd noFailures) s = .next
        (State.replied (State.markedPart { t1 with ctl := { t1.ctl with mapFault := s.ctl.mapFault.put p false } } .store) .ok [])) ∧
      (s.ctl.mapFault.has p = true → leads (exec (.remapWriteEnd failing) s) fun t =>
        t.ctl.mapFault = s.ctl.mapFault ∧ t.port.response = some ⟨.mapFault, []⟩ ∧ t.ctl.mirror = t1.ctl.mirror ∧
        t.store.map = t1.store.map)) ∧
    (s.serving (.mapRepair r p) [.writeMap] → s.ctl.mapFault.has p = false →
      let e := s.ctl.mirror[p]
      let t1 := s.storeFreed.mapWritten p e
      (e.valid = false → (∀ q a, r ≠ .openRecord q a) → exec (.mapRepairEnd noFailures) s = .next (t1.replied .noRecord [])) ∧
      (e.valid = false → ∀ q a, r = .openRecord q a → exec (.mapRepairEnd noFailures) s = .next (t1.queues (.openRecord p
        (if e.gen < 65535 then e.gen + 1 else 1) (openStatics s.geometry a) (openHeat a) (openClamped s.geometry a)))) ∧
      (∀ q c, r = .lookup q → e.valid = true → s.ctx p = some c → exec (.mapRepairEnd noFailures) s = .next (t1.queues (.lookupRead p
        { gen := c.gen, fast := c.fast, shadow := c.shadow, writeOpen := c.checkpoint == .writing }))) ∧
      leads (exec (.mapRepairEnd failing) s) fun t =>
        t.ctl.mapFault = s.ctl.mapFault.put p true ∧ t.events.store = true ∧ t.port.response = some ⟨.mapFault, []⟩ ∧ t.ctxs = s.ctxs)

/-- A settings write puts the items of one word from the copy into the store, makes the item good and is answered;
FORMAT leaves every item at its default, the mark not valid, every entry invalid, every frame blank, no word failed and
the outage timer stopped at 0 (R152, R193, R194). That the copy of the format word takes its value here is log entry 77. -/
def Obligations.CommissionWritesReachTheStore : Prop :=
  ∀ (i n : Nat) (g : Geometry) (s : State), s.powered = true → s.part = .commission →
    (1 ≤ i ∧ i ≤ 95 → s.serving (.settingsWrite i) [.writeSettings] →
      leads (exec .settingsWriteEnd s) fun t =>
        t.port = { s.port with state := .ready, request := none, response := some ⟨.ok, []⟩ } ∧
        t.store = { s.store.setFlaw (itemWord i) none with settings := s.store.settings.withWord s.ctl.settings (itemWord i) } ∧
        t.ctl.wordBad = s.ctl.wordBad.setIfInBounds (itemWord i) false ∧ t.ctl.itemBad = s.ctl.itemBad.setIfInBounds i false ∧
        t.ctl.current = none ∧ t.ctl.settings = s.ctl.settings ∧ t.ctl.loaded = s.ctl.loaded ∧
        t.part = .commission ∧ t.ctxs = s.ctxs ∧ t.link = s.link ∧ t.arb = s.arb ∧ t.backup = s.backup ∧ t.events = s.events) ∧
    (s.serving (.format g n) (formatTodo g) → s.storeWf →
      leads (exec (.formatEnd noFailures) s) fun t =>
        t.store.format = ⟨true, g, n⟩ ∧ t.ctl.format = ⟨true, g, n⟩ ∧ t.store.settings = Settings.default ∧
        t.ctl.settings = Settings.default ∧ t.store.mark = ⟨false, 0, 0⟩ ∧ t.sup.mark = ⟨false, 0, 0⟩ ∧
        (∀ p : Pocket, t.store.map[p] = ⟨false, 0, 0⟩) ∧ (∀ f, f < frameCount g → t.store.frame f = Frame.blank) ∧
        t.store.flaws = [] ∧ t.ctl.headerGood = true ∧ t.ctl.loaded = s.ctl.loaded ∧
        t.part = .commission ∧ t.ctxs = s.ctxs ∧ t.link = s.link ∧ t.arb = s.arb ∧ t.events = s.events ∧
        t.backup = { s.backup with timer := 0, running := false, secondMs := 0 } ∧
        t.port = { s.port with state := .ready, request := none, response := some ⟨.ok, []⟩ })

/-- The planner's read of a record frame hands it over with the words that cannot be read (R53, R157), here while the
first polls go on. -/
def Obligations.PlannerReadsHandOverTheFrame : Prop :=
  ∀ (p : Pocket) (f : Nat) (s : State), s.powered = true → s.part = .plan → s.plan.step = .firstPolls →
    s.serving (.plannerRead p f) [.readFrame] → s.frameClean f →
    exec (.plannerFrameReadEnd noFailures) s = .next { s.storeFreed with plan := { s.plan with
      images := upd s.plan.images p (some { frame := f, data := s.store.frame f, bad := [] }) } }

/-- The closing mark write of PLAN clears the mark's valid flag in the store and the copy, stops and clears the outage
timer, and leads to ACTIVE, where every PENDING record without a hold wants its start at its resume level. Before it,
CLEAR_DOOR is posted to every ONLINE pocket, as far as the limits admit it, with latch seen set, and to no other (R93, R107,
R172). A save's mark write writes the copy as it stands (R143, R153). -/
def Obligations.MarkWritesOpenAndCloseAnOutage : Prop :=
  ∀ s : State, s.powered = true →
    (s.part = .plan → s.plan.step = .close → s.serving (.markWrite true) [.writeMark] →
      leads (exec .markWriteEnd s) fun t =>
        t.port = s.port ∧ (∀ p, (t.ctx p).map (·.fast) = (s.ctx p).map (·.fast)) ∧
        t.part = .active ∧ t.events.stateChange = true ∧ t.ctl.current = none ∧ t.sup.mark = { s.sup.mark with valid := false } ∧
        t.store = { s.store.setFlaw markWord none with mark := { s.sup.mark with valid := false } } ∧
        t.backup = { s.backup with timer := 0, running := false, secondMs := 0, valid := s.backup.valid || s.sup.vbkGood } ∧
        (∀ p c, s.ctx p = some c → c.fast.status = .pending → c.fast.hold = .none → t.wantsStart p (c.fast.level.getD 0)) ∧
        ((∀ q, (s.pocketLink q).safeOwed = false) → ∀ p,
          ((s.pocketLink p).state = .online → s.entryCount p < 3 → s.link.queue.length + s.onlineCount ≤ 32 →
            t.queued p .clearDoor = true ∧ (t.pocketLink p).latchSeen = true) ∧
          ((s.pocketLink p).state ≠ .online →
            t.queued p .clearDoor = s.queued p .clearDoor ∧ (t.pocketLink p).latchSeen = (s.pocketLink p).latchSeen))) ∧
    (s.part = .save → s.serving (.markWrite false) [.writeMark] →
      leads (exec .markWriteEnd s) fun t => t.store = { s.store.setFlaw markWord none with mark := s.sup.mark })

/-! ### The START scan and the patrol -/

/-- The START scan: a sound header area is loaded, with the start enable mask, and the part goes to PLAN when mains is
settled, otherwise it waits in START; any other header area sends the part to COMMISSION with a broadcast SAFE (R51,
R110, R115, R139, R190). The first-poll window of pocket 0 opens in the step that enters PLAN (log entry 40). -/
def Obligations.StartScanJudgesTheHeader : Prop :=
  ∀ s : State, s.powered = true → s.part = .start → s.ctl.scanning = true →
    (s.headerSound → leads (exec (.startScanEnd noFailures) s) fun t =>
      t.ctxs = s.ctxs ∧ t.backup = s.backup ∧ t.port = s.port ∧
      t.part = (if s.sup.settled then .plan else .start) ∧ t.ctl.scanning = false ∧ t.ctl.scanDone = true ∧
      t.ctl.format = s.store.format ∧ t.ctl.loaded = s.store.settings ∧ t.ctl.settings = s.store.settings ∧
      t.ctl.headerGood = true ∧ t.arb.mask = BitVec.ofNat 32 (s.store.settings.item 31) ∧
      (s.sup.settled = true → t.plan.window.map (·.pocket) = some 0) ∧
      (s.sup.settled = true → s.inFlight = none → t.inFlight = some { Entry.fresh none .safe with state := .inFlight })) ∧
    (¬ s.headerSound → leads (exec (.startScanEnd noFailures) s) fun t =>
      t.ctxs = s.ctxs ∧ t.backup = s.backup ∧ t.port = s.port ∧ t.sup = s.sup ∧
      t.part = .commission ∧ t.ctl.scanning = false ∧ t.ctl.headerGood = false ∧ t.events.stateChange = true ∧
      t.store.frames = s.store.frames ∧ t.store.map = s.store.map ∧ t.store.mark = s.store.mark ∧
      (s.inFlight = none → t.inFlight = some { Entry.fresh none .safe with state := .inFlight }))

/-- After a START scan that accepts the header, whatever words fail in it, every valid entry of the map mirror belongs to
a pocket below P and names a LIVE frame of that pocket and generation, and every frame is in the free list, in the
quarantine set, or the record frame of one pocket (R46, R51, R52). -/
def Obligations.AfterTheScanMapAndPoolsAgree : Prop :=
  (∀ (found : Findings) (s t : State), s.powered = true → s.part = .start → s.ctl.scanning = true →
     exec (.startScanEnd found) s = .next t → t.part ≠ .commission →
     ∀ p : Pocket, (t.ctl.mirror[p]).valid = true →
       let f := (t.ctl.mirror[p]).frame
       p.val < t.count ∧ f < frameCount t.geometry ∧ (t.store.frame f).header.state = .live ∧
       (t.store.frame f).header.pocket = p.val ∧ (t.store.frame f).header.gen = (t.ctl.mirror[p]).gen) ∧
  (∀ (found : Findings) (s t : State), s.powered = true → s.part = .start → s.ctl.scanning = true → s.ctl.quarantine = 0 →
     exec (.startScanEnd found) s = .next t → t.part ≠ .commission → t.framesPlaced)

/-- A patrol read finds a clean word and moves on; a correctable one is written back, counted and latched; an
uncorrectable one has a live record moved, a free frame withdrawn, a map word rewritten from the mirror, which leaves a map
fault as it is (log entry 38). A read that falls due while the store works is owed (R47, R48). The column for DARK, and the
settings and mark words, are not stated here. -/
def Obligations.PatrolActsOnWhatItReads : Prop :=
  ∀ (n : Nat) (s : State), s.powered = true → s.part = .active → s.ctl.cursor = n → n < 430 → s.inQuarantine n = false →
    let read := exec (.patrolRead noFailures) s
    let t1 := { s with ctl := { s.ctl with cursor := (n + 1) % 430, patrolOwed := false } }
    (∀ found, leads (exec (.patrolRead found) s) fun t =>
      t.part = .active ∧ t.ctxs = s.ctxs ∧ t.link = s.link ∧ t.arb = s.arb ∧ t.heat = s.heat ∧ t.port = s.port ∧ t.sup = s.sup) ∧
    (s.ctl.current ≠ none ∨ s.ctl.queue ≠ [] → read = .next { s with ctl := { s.ctl with patrolOwed := true } }) ∧
    (s.ctl.current = none → s.ctl.queue = [] →
      (s.store.flaw n = none → read = .next t1) ∧
      (s.store.flaw n = some .correctable → s.nonePinned → s.storeWf → leads read fun t =>
        t.store = s.store.setFlaw n none ∧ t.store.flaw n = none ∧ t.ctl.correctable = min 65535 (s.ctl.correctable + 1) ∧
        t.ctl.latch.state ≠ .empty ∧ t.ctl.queue = [] ∧ t.ctl.cursor = (n + 1) % 430) ∧
      (∀ (p : Pocket) (c : Context) (f k : Nat), n = frameWord s.geometry f k → k < frameSize s.geometry →
        s.store.flaw n = some .uncorrectable →
        (s.holderOf f = some (p, c) → c.pinned = false → leads read fun t =>
          t.ctl.queue = [.move p f false] ∧ t.ctl.latch.state = .uncorrectable ∧ t.store = s.store) ∧
        (s.holderOf f = none → f ∈ s.ctl.free → f < 48 → leads read fun t =>
          f ∉ t.ctl.free ∧ t.quarantined f = true ∧ (t.store.frame f).header.state = .quarantined ∧ t.events.store = true)) ∧
      (∀ p : Pocket, n = mapWord p → s.store.flaw n = some .uncorrectable → s.storeWf → leads read fun t =>
        t.store.map[p] = s.ctl.mirror[p] ∧ t.store.flaw n = none ∧ t.ctl.latch.state = .uncorrectable ∧
        t.ctl.mapFault = s.ctl.mapFault) ∧
      (n = 0 → s.store.flaw 0 = some .uncorrectable → s.storeWf → leads read fun t =>
        t.store.format = s.ctl.format ∧ t.store.flaw 0 = none))

/-! ### The clocks -/

/-- A clock step raises the uptime; in ACTIVE a held record's clocks stand, heat is spent only while it is confirmed on
and cool only while the motor is confirmed running, and a count that reaches 0 takes the record on; a COOL_FIRST record
leaves COOL only once it has cooled enough, held DAMAGED from level 15, back to HEAT held RESUME_ASK when its heating was
interrupted, and otherwise by the cool exit (R7, R8, R16, R17, R18, R72, R138, R173, R174). -/
def Obligations.ClockStepCountsWhatRuns : Prop :=
  ∀ (p : Pocket) (c : Context) (s : State), s.powered = true →
    let up := { s with sup := { s.sup with uptime := min 4294967295 (s.sup.uptime + 1) } }
    (s.part ≠ .active → exec .clockStep s = .next up) ∧
    (s.part = .active → s.ctx p = some c → leads (exec .clockStep s) fun t =>
      t.sup = up.sup ∧ t.store = s.store ∧ t.port = s.port ∧ t.backup = s.backup ∧
      ∃ d, t.ctx p = some d ∧
        (c.fast.hold ≠ .none ∨ c.fast.phase = .staged ∨ c.fast.phase = .done → d.fast = c.fast) ∧
        (c.fast.hold = .none → c.fast.phase = .heat →
          (s.heatConfirmed p = false → d.fast = c.fast) ∧
          (s.heatConfirmed p = true → 1 < c.fast.heat → d.fast = { c.fast with heat := c.fast.heat - 1 }) ∧
          (s.heatConfirmed p = true → c.fast.heat ≤ 1 → d.fast.phase = .cool ∧ d.fast.heat = 0)) ∧
        (c.fast.hold = .none → c.fast.phase = .cool →
          (s.motorConfirmed p = false ∨ c.awaitCool = true → d.fast = c.fast) ∧
          (s.motorConfirmed p = true → c.awaitCool = false → 1 < c.fast.cool → d.fast = { c.fast with cool := c.fast.cool - 1 }) ∧
          (s.motorConfirmed p = true → c.awaitCool = false → c.fast.cool ≤ 1 → c.fast.cls ≠ some .coolFirst →
            d.fast = { c.fast with phase := .crease, cool := 0, progress := none })) ∧
        (s.motorConfirmed p = true → c.coolsFirst 1 →
          ((∀ y, (s.pocketLink p).exhaust = some y → y ≤ s.exitThreshold) →
            d.fast = { c.fast with cool := 0 }.coolFirstOver ∧ t.events.resume.has p = true) ∧
          (∀ y, (s.pocketLink p).exhaust = some y → s.exitThreshold < y → d.fast = { c.fast with cool := 0 })) ∧
        (∀ cp, c.fast.hold = .none → c.fast.phase = .crease → c.fast.progress = some cp →
          (cp.window ≤ 1 → d.fast.phase = .done ∧ d.fast.progress = none) ∧
          (1 < cp.window → cp.tumbling = false →
            d.fast = { c.fast with progress := some { cp with window := cp.window - 1, nextDue := cp.nextDue - 1 } }) ∧
          (1 < cp.window → cp.tumbling = true → 1 < c.tumbleLeft.getD 0 →
            d.fast = { c.fast with progress := some { cp with window := cp.window - 1 } } ∧ d.tumbleLeft = c.tumbleLeft.map (· - 1))) ∧
        (c.timer ≠ 1 → d.timer = c.timer - 1))

/-- A HEAT exit takes the record to COOL with its heat off and its cool length to be read; a cool exit takes it to CREASE with
its crease progress to be set up; a checkpoint then waits, behind the read unless one waited before (R7, R8, R12, R22, R61,
R71, R175). HEAT_OFF, or STOP, is posted, and purges the HEAT_ON, or RUN, that waits (R94, R96). -/
def Obligations.ExitsTakeTheRecordOn : Prop :=
  ∀ (p : Pocket) (c : Context) (s : State), s.runs p c →
    let behind (t : State) (x : ReadPurpose) : Prop := t.checkpointQueued p = true ∧
      (∃ why, .staticRead p why ∈ t.ctl.queue ∧ x ∈ why) ∧
      (s.checkpointQueued p = false → ∃ before why after, t.ctl.queue = before ++ .staticRead p why :: after ∧ x ∈ why ∧
        .checkpoint p ∈ after)
    (c.fast.phase = .heat → c.fast.heat = 0 → s.heatConfirmed p = true → s.waitsOnItsPhase p →
      let d : Context := { c.change (fun f => { (if f.reheating then f.endResume else f) with phase := .cool }) with awaitCool := true }
      leads (exec (.heatExit p) s) fun t =>
        t.offGrant = State.offGrant (((s.withCtx p (some (s.due p d))).marked .phase p).markedIf c.fast.reheating .resume p) ∧
        t.hasReservation p = false ∧ t.heatDesired p = false ∧ behind t .heatExit ∧
        ((s.pocketLink p).motorBelieved = true → s.posts p .heatOff → t.turnedOff p)) ∧
    (c.fast.phase = .cool → c.fast.cool = 0 → c.awaitCool = false → c.fast.cls ≠ some .coolFirst → s.motorConfirmed p = true →
      leads (exec (.coolExit p) s) fun t =>
        t.offGrant = State.offGrant ((s.withCtx p (some (s.due p
          (c.change fun f => { f with phase := .crease, progress := none })))).marked .phase p) ∧
        t.request p = none ∧ behind t .coolExit ∧ (c.tumbleGranted = false → s.posts p .stop → t.stopped p))

/-- The crease ends by its window or its count and the record goes to DONE; a tumble that ends leaves the next one due
after the interval; STOP is posted in either case, and purges a RUN that waits; a tumble that falls due wants a start at
level 3, or at the resume level (R21, R73, R75, R76, R77, R94, R96). -/
def Obligations.TumblesComeAndGo : Prop :=
  ∀ (p : Pocket) (c : Context) (cp : CreaseProgress) (s : State), s.runs p c → c.fast.phase = .crease → c.fast.progress = some cp →
    (cp.window = 0 → leads (exec (.creaseWindowEnd p) s) fun t =>
      t.offGrant = (s.creaseOver p c).offGrant ∧ t.request p = none ∧ t.motorDesired p = false ∧
      ((s.pocketLink p).motorBelieved = true ∨ s.queued p .run = true → s.posts p .stop → t.stopped p)) ∧
    (cp.tumbling = true → c.tumbleLeft = some 0 →
      let d : Context := { c.change (fun f => { f with progress := some { cp with tumbling := false, nextDue := c.interval } }) with
        tumbleLeft := none, tumbleGranted := false }
      (cp.remaining ≠ 0 → leads (exec (.tumbleEnd p) s) fun t =>
        t.offGrant = (s.withCtx p (some d)).offGrant ∧ t.request p = none ∧ t.motorDesired p = false ∧
        ((s.pocketLink p).motorBelieved = true → s.posts p .stop → t.stopped p)) ∧
      (cp.remaining = 0 → leads (exec (.tumbleEnd p) s) fun t => t.offGrant = (s.creaseOver p d).offGrant ∧ t.request p = none)) ∧
    (cp.tumbling = false → cp.nextDue = 0 → leads (exec (.tumbleDue p) s) fun t =>
      t.offGrant = s.offGrant ∧ t.wantsStart p (s.requestLevel p 3))

/-! ### The pocket link -/

/-- The oldest entry that may be sent, with no older entry of its pocket before it, is sent and the reply window opens; a
broadcast leaves every pocket believed stopped and off; nothing is sent while an exchange is under way, and a RUN that
fails its retry test leaves the queue (R84, R86, R95, R100). -/
def Obligations.OldestEntryIsSent : Prop :=
  ∀ (e : Entry) (before after : List Entry) (s : State), s.powered = true →
    (s.inFlight ≠ none → exec .linkFrameSend s = .next s) ∧
    (s.inFlight = none → s.link.queue = before ++ e :: after → e.ready = true →
      (∀ x ∈ before, x.ready = false ∧ x.pocket ≠ e.pocket) →
      (e.state = .unsent ∨ s.retryTest e = true →
        let t1 := { s with link := { s.link with
          queue := before ++ { e with state := .inFlight } :: after, windowMs := 4, sent := Entry.bytes e } }
        (e.pocket ≠ none → exec .linkFrameSend s = .next t1) ∧
        (e.pocket = none → exec .linkFrameSend s = .next { t1 with link := { t1.link with
          pockets := t1.link.pockets.map fun l => { l with motorBelieved := false, heatBelieved := none } } })) ∧
      (∀ p, e.state ≠ .unsent → e.kind = .run → e.pocket = some p →
        (s.pocketLink p).runAuthority = false ∨ s.motorDesired p = false →
        leads (exec .linkFrameSend s) fun t => t.offLink = s.offLink ∧ e ∉ t.link.queue))

/-- A silent frame is sent again up to three times; the fourth silence in a row makes the pocket OFFLINE, with its
entries, request, slot and reservation gone and its record held LINK. A silent probe leaves an OFFLINE pocket so, and a
silent POLL a FAULT pocket (R89, R90). The reply window counts from the send (log entry 35). Records in CREASE, and a SAFE
or CLEAR_DOOR to a pocket in FAULT, are not stated here. -/
def Obligations.SilenceLeadsToOffline : Prop :=
  ∀ (p : Pocket) (e : Entry) (s : State), s.exchanging p e → s.noBroadcast →
    let st := (s.pocketLink p).state
    (st = .online ∨ st = .unknown → e.silent < 3 →
      exec .replyWindowExpiry s = .next (s.flightChanged 4 fun x => { x with silent := x.silent + 1 })) ∧
    (st = .online ∨ st = .unknown → 3 ≤ e.silent → (s.pocketLink p).probeOwed = false → s.waitsOnItsPhase p →
      leads (exec .replyWindowExpiry s) fun t =>
        t.sameBut s p ∧
        (t.pocketLink p).state = .offline ∧ (t.pocketLink p).offlineMs = some 5000 ∧ (t.pocketLink p).startAttempts = 0 ∧
        t.events.link.has p = true ∧ (∀ x ∈ t.link.queue, x.pocket ≠ some p) ∧ t.request p = none ∧ t.slotOf p = none ∧
        t.hasReservation p = false ∧
        ∀ c, s.ctx p = some c → c.fast.phase = .heat ∨ c.fast.phase = .cool → c.fast.progress = none → c.fast.hold ≠ .damaged →
          t.holdOf p = some .link) ∧
    (st = .offline → leads (exec .replyWindowExpiry s) fun t =>
      (t.pocketLink p).state = .offline ∧ (t.pocketLink p).offlineMs = some 5000 ∧ t.offLink = s.offLink) ∧
    (st = .fault → e.kind = .poll → leads (exec .replyWindowExpiry s) fun t =>
      (t.pocketLink p).state = .fault ∧ t.offLink = s.offLink ∧ t.inFlight = none)

/-- A STATUS sets the believed state as reported and the exhaust reading, brings an UNKNOWN or OFFLINE pocket ONLINE, holds
a HEAT or COOL record whose door is open, retires one in DONE with auto-retire on, clears the DOOR hold of a COOL record
whose door is closed, and takes a pocket with a motor fault to FAULT (R10, R15, R86, R88, R106 to R108). It gives a HEAT or
COOL record its load temperature, makes a start request for a start that was lost, posts CLEAR_DOOR for a latch not seen yet,
holds a record in HEAT whose heat failed, and lets a COOL_FIRST record that has cooled enough leave COOL (R106 to R108, R173,
R174). -/
def Obligations.StatusIsTaken : Prop :=
  ∀ (p : Pocket) (e : Entry) (r : StatusReport) (s : State), s.exchanging p e → e.kind = .poll →
    leads (exec (.statusArrival p (.report r)) s) fun t =>
      t.sameBut s p ∧ (t.pocketLink p).motorBelieved = r.motorRunning ∧ (t.pocketLink p).heatBelieved.isSome = r.heatOn ∧
      (t.pocketLink p).exhaust = (if r.exhaust < 255 then some (min 200 r.exhaust) else (s.pocketLink p).exhaust) ∧
      (r.motorFault = false → (s.pocketLink p).state = .unknown ∨ (s.pocketLink p).state = .offline →
        (t.pocketLink p).state = .online ∧ t.events.link.has p = true) ∧
      (r.motorFault = true → (s.pocketLink p).state ≠ .absent → (t.pocketLink p).state = .fault) ∧
      (r.motorFault = true → (s.pocketLink p).state = .online →
        (t.pocketLink p).cause = some .motorFault ∧ t.request p = none ∧ t.slotOf p = none ∧ t.events.link.has p = true) ∧
      (r.latch = true → r.motorFault = false → s.ctx p = none → (s.pocketLink p).state = .online → (s.pocketLink p).latchSeen = false →
        (∀ q, (s.pocketLink q).safeOwed = false) → s.link.queue.length < 30 → s.entryCount p = 1 →
        t.queued p .clearDoor = true ∧ (t.pocketLink p).latchSeen = true) ∧
      ∀ c, s.ctx p = some c →
        (c.fast.phase = .heat ∨ c.fast.phase = .cool → r.motorRunning = true → r.exhaust < 255 →
          (t.ctx p).map (·.fast.temp) = some (min 200 r.exhaust)) ∧
        (r.motorFault = false → r.heatFault = true → c.fast.phase = .heat → c.fast.hold = .none → r.doorOpen = false →
          r.latch = false → s.waitsOnItsPhase p →
          t.holdOf p = some .heatFault ∧ t.events.hold.has p = true ∧ t.hasReservation p = false ∧ t.request p = none ∧
          (s.geometry = .standard → (t.ctx p).bind (·.fast.lastFault) = some .heatFault)) ∧
        (r.motorFault = false → r.heatFault = false →
          (c.fast.phase = .heat ∨ c.fast.phase = .cool → c.fast.hold = .none → r.doorOpen = true →
            t.holdOf p = some .door ∧ t.events.hold.has p = true ∧ t.request p = none) ∧
          (c.fast.phase = .done → r.doorOpen = true → s.setting 2 = 1 → t.ctx p = none ∧ t.events.retired.has p = true) ∧
          (c.fast.phase = .cool → c.fast.hold = .door → c.fast.status = .none → r.latch = false → r.doorOpen = false →
            t.holdOf p = some .none ∧ t.wantsStart p 7) ∧
          (c.fast.phase = .staged → c.fast.status = .none → t.ctx p = some c) ∧
          (c.fast.hold = .none → r.latch = false → r.doorOpen = false →
            (c.fast.phase = .heat ∨ (c.fast.phase = .cool ∧ c.fast.status = .none) → (s.pocketLink p).motorBelieved = true →
              r.motorRunning = false → t.wantsStart p (s.requestLevel p 7)) ∧
            (c.coolsFirst 0 → s.coolEnough p r → t.events.resume.has p = true ∧ t.request p = none ∧
              ∃ x, (t.ctx p).map (·.fast) = some { c.fast.coolFirstOver with temp := x })))

/-- An ACK to RUN makes the motor believed running, ends the RUN authority and the request, starts the start window, and
then a HEAT record asks for heat, a CREASE record begins its tumble and a PENDING one is RUNNING; where the budget allows, the
heat is reserved at once and HEAT_ON posted; an ACK to HEAT_ON confirms the heat and ends a REHEAT resumption (R74, R86, R96,
R97, R102, R122, R127, R128). -/
def Obligations.AcknowledgementsAreTaken : Prop :=
  ∀ (p : Pocket) (e : Entry) (s : State), s.exchanging p e →
    (e.kind = .run → leads (exec (.runAck p) s) fun t =>
      t.sameBut s p ∧ (t.pocketLink p).motorBelieved = true ∧ (t.pocketLink p).startAttempts = 0 ∧ (t.pocketLink p).runAuthority = false ∧
      t.request p = none ∧
      (∀ x, s.slotOf p = some x → x.stage = .awaitAck →
        t.slotOf p = some { x with stage := .starting, timerMs := s.setting 9 * 100, carried := none }) ∧
      ∀ c, s.ctx p = some c → c.fast.hold = .none →
        (c.fast.phase = .heat → (s.pocketLink p).motorBelieved = false → s.draw p ≤ s.budget (s.phaseOf p) →
          t.hasReservation p = true ∨ p ∈ t.waitList (s.phaseOf p)) ∧
        (c.fast.phase = .heat → (s.pocketLink p).motorBelieved = false → (s.pocketLink p).heatBelieved = none →
          s.hasReservation p = false → s.waitList (s.phaseOf p) = [] → s.sag.active = false →
          s.reservedSum (s.phaseOf p) + s.draw p ≤ s.budget (s.phaseOf p) → (s.pocketLink p).state = .online →
          (∀ q, (s.pocketLink q).safeOwed = false) → s.link.queue.length < 32 → s.entryCount p ≤ 3 →
          t.hasReservation p = true ∧ t.queued p .heatOn = true) ∧
        (c.fast.phase = .heat ∨ c.fast.phase = .cool → c.fast.status = .pending →
          (t.ctx p).map (·.fast.status) = some .running ∧ t.events.resume.has p = true) ∧
        ∀ cp, c.fast.phase = .crease → c.fast.progress = some cp → cp.tumbling = false → ∃ d, t.ctx p = some d ∧
          d.fast.progress = some { cp with tumbling := true, remaining := cp.remaining - 1 } ∧ d.tumbleLeft = some c.length ∧
          d.fast.status = .none) ∧
    (e.kind = .heatOn → leads (exec (.heatOnAck p) s) fun t =>
      t.sameBut s p ∧ (t.pocketLink p).heatBelieved = some (e.level.getD 1) ∧
      (s.heatDesired p = true → (s.pocketLink p).heatBelieved = none → t.heatConfirmed p = true) ∧
      ∀ c, s.ctx p = some c → c.fast.status = .running → c.fast.cls = some .reheat → (t.ctx p).map (·.fast.status) = some .none ∧ t.events.resume.has p = true)

/-- A RUN or HEAT_ON refused for LOCKOUT or BUSY waits 250 ms and counts one attempt, the RUN on its pocket and the
HEAT_ON on its entry; at the retry limit the pocket goes to FAULT, or the record takes HEAT_FAULT (R99, R100, R101). One
refused by an open door is not retried: a RUN's authority ends and its slot is marked, and the record takes hold DOOR
(R103, R124). -/
def Obligations.RefusalsAreActedOn : Prop :=
  (∀ (p : Pocket) (e : Entry) (why : RetryReason) (s : State), s.exchanging p e → (s.pocketLink p).state = .online →
     let l := s.pocketLink p
     let wait (n : Nat) (x : Entry) : Entry := { x with attempts := n, silent := 0, state := .waitRetry 250 }
     (e.kind = .run → l.startAttempts + 1 < s.setting 3 → s.noBroadcast → exec (.notReadyRetry p why) s =
       .next ((s.withLink p { l with startAttempts := l.startAttempts + 1 }).flightChanged 0 (wait e.attempts))) ∧
     (e.kind = .run → s.setting 3 ≤ l.startAttempts + 1 → leads (exec (.notReadyRetry p why) s) fun t =>
       t.sameBut s p ∧ (t.pocketLink p).state = .fault ∧ (t.pocketLink p).cause = some .retryExhausted ∧ t.request p = none ∧ t.slotOf p = none ∧
       (t.pocketLink p).startAttempts = 0 ∧ t.events.link.has p = true) ∧
     (e.kind = .heatOn → e.attempts + 1 < s.setting 3 → s.noBroadcast → exec (.notReadyRetry p why) s =
       .next (s.flightChanged 0 (wait (e.attempts + 1)))) ∧
     (e.kind = .heatOn → s.setting 3 ≤ e.attempts + 1 → ∀ c, s.ctx p = some c → c.fast.phase = .heat → c.fast.hold = .none →
       leads (exec (.notReadyRetry p why) s) fun t =>
         t.sameBut s p ∧ t.holdOf p = some .heatFault ∧ t.request p = none ∧ t.events.hold.has p = true)) ∧
  (∀ (p : Pocket) (e : Entry) (c : Context) (s : State), s.exchanging p e → e.kind = .run ∨ e.kind = .heatOn →
     s.ctx p = some c → c.fast.phase = .heat ∨ c.fast.phase = .cool → c.fast.hold = .none →
     leads (exec (.notReadyDoorOpen p) s) fun t =>
       t.sameBut s p ∧ t.holdOf p = some .door ∧ t.events.hold.has p = true ∧ t.request p = none ∧
       (t.pocketLink p).startAttempts = (s.pocketLink p).startAttempts ∧ (t.pocketLink p).runAuthority = false ∧
       (e.kind = .run → ∀ x, s.slotOf p = some x → x.stage = .awaitAck →
         t.slotOf p = some { x with doorRefused := true, carried := none }))

/-- Any good reply to STOP, HEAT_OFF or SAFE is an acknowledgement and changes the believed state as the command says, and the
end of a CLEAR_DOOR exchange clears latch seen; a discarded reply changes nothing; a retry time that is reached makes the
waiting entry eligible (R84 to R86, R100, R107). -/
def Obligations.PostedCommandsAreAcknowledged : Prop :=
  ∀ (p : Pocket) (e : Entry) (a : PostedAnswer) (s : State), s.powered = true →
    (s.exchanging p e →
      (e.kind = .stop → leads (exec (.postedReply p a) s) fun t =>
        t.sameBut s p ∧ (t.pocketLink p).motorBelieved = false ∧ (t.pocketLink p).heatBelieved = (s.pocketLink p).heatBelieved) ∧
      (e.kind = .heatOff → leads (exec (.postedReply p a) s) fun t =>
        t.sameBut s p ∧ (t.pocketLink p).heatBelieved = none ∧ (t.pocketLink p).motorBelieved = (s.pocketLink p).motorBelieved) ∧
      (e.kind = .safe → leads (exec (.postedReply p a) s) fun t =>
        t.sameBut s p ∧ (t.pocketLink p).motorBelieved = false ∧ (t.pocketLink p).heatBelieved = none) ∧
      (e.kind = .clearDoor → leads (exec (.postedReply p a) s) fun t =>
        t.sameBut s p ∧ (t.pocketLink p).latchSeen = false ∧ (t.pocketLink p).motorBelieved = (s.pocketLink p).motorBelieved ∧
        (t.pocketLink p).heatBelieved = (s.pocketLink p).heatBelieved)) ∧
    exec .replyDiscarded s = .next s ∧
    exec (.retryTimeReached p) s = .next { s with link := { s.link with
      queue := s.link.queue.map fun x =>
        match x.state, x.isFor p with
        | .waitRetry _, true => { x with state := .waitRetry 0 }
        | _, _ => x } }

/-- A poll turn posts a POLL for a pocket in ONLINE, UNKNOWN or FAULT, merged with one that is unsent, and is skipped at
24 entries in all or 3 for the pocket; an OFFLINE pocket is probed at its own timer (R93, R104, R105). A
timer expiry of a pocket that is not OFFLINE, which the part never sees, changes nothing: that is the model's
DESIGN CHOICE of log entry 5. -/
def Obligations.PollsAreSkippedNotQueuedTwice : Prop :=
  ∀ (p : Pocket) (s : State), s.powered = true → s.part = .active → p.val < s.count →
    let st := (s.pocketLink p).state
    let polled := { s with link := { s.link with queue := s.link.queue ++ [Entry.fresh (some p) .poll] } }
    (st = .online ∨ st = .unknown ∨ st = .fault →
      exec (.pollTurn p) s = .next
        (if s.link.queue.length < 24 ∧ s.unsent p .poll = false ∧ s.entryCount p < 3 then polled else s)) ∧
    (st = .offline ∨ st = .absent → exec (.pollTurn p) s = .next s) ∧
    (st = .offline → s.link.queue.length < 32 → s.entryCount p < 3 → s.unsent p .poll = false →
      exec (.offlinePollTimerExpiry p) s =
        .next (polled.withLink p { s.pocketLink p with offlineMs := some 0, probeOwed := false })) ∧
    (st ≠ .offline → exec (.offlinePollTimerExpiry p) s = .next s)

/-! ### Starts, heat and the throttle -/

/-- A start window that ends releases its slot; a grant timeout releases its slot and returns the request at the granted
level, or the carried one above it, unless the door refused the start or the motor is no longer desired (R122, R123). -/
def Obligations.SlotsAreReleased : Prop :=
  ∀ (p : Pocket) (x : Slot) (s : State), s.powered = true → s.part = .active → s.slotOf p = some x → s.request p = none →
    (x.stage = .starting → x.carried = none ∨ s.motorDesired p = false ∨ (s.pocketLink p).motorBelieved = true →
      leads (exec (.startWindowEnd p) s) fun t => t.slotOf p = none ∧ t.request p = none ∧ t.offGrant = s.offGrant) ∧
    (∀ n, x.stage = .starting → x.carried = some n → s.motorDesired p = true → (s.pocketLink p).motorBelieved = false →
      leads (exec (.startWindowEnd p) s) fun t => t.wantsStart p n ∧ t.offGrant = s.offGrant) ∧
    (x.stage = .awaitAck → x.doorRefused = true ∨ s.motorDesired p = false ∨ (s.pocketLink p).state ≠ .online →
      leads (exec (.grantTimeout p) s) fun t =>
        t.slotOf p = none ∧ t.request p = none ∧ (t.pocketLink p).runAuthority = false ∧ t.offGrant = s.offGrant) ∧
    (x.stage = .awaitAck → x.doorRefused = false → s.motorDesired p = true → (s.pocketLink p).state = .online →
      leads (exec (.grantTimeout p) s) fun t =>
        t.wantsStart p (max x.level (x.carried.getD 0)) ∧ t.offGrant = s.offGrant)

/-- The grant at the end of the start gap goes to the eligible request of the highest level, then of the lowest pocket,
which leaves the set for a slot in AWAIT_ACK and the RUN authority, and RUN is posted; without a free slot, or while the
throttle is active, no grant is made (R96, R97, R119, R120). -/
def Obligations.GrantGoesToTheWinner : Prop :=
  ∀ (p : Pocket) (n : Nat) (s : State), s.powered = true → s.part = .active →
    (s.grantAllowed → s.wins p n → s.slotOf p = none → leads (exec .startGapEnd s) fun t =>
      t.request p = none ∧ t.slotOf p = some { pocket := p, stage := .awaitAck, level := n, timerMs := s.setting 10 * 100
                                               carried := none, doorRefused := false } ∧
      (t.pocketLink p).runAuthority = true ∧ t.arb.sinceGrant = some 0 ∧ t.offGrant = s.offGrant ∧
      (s.motorDesired p = true → (s.pocketLink p).motorBelieved = false → s.posts p .run → t.queued p .run = true)) ∧
    (s.setting 7 ≤ s.arb.slots.length ∨ s.sag.active = true ∨ (∀ q, s.eligible q = false) →
      leads (exec .startGapEnd s) fun t => t.arb.requests = s.arb.requests ∧ t.arb.slots = s.arb.slots ∧ t.offGrant = s.offGrant)

/-- Sag pulses are counted; at the threshold the throttle becomes active for its throttle time. The window clears the
count, and at the end of the throttle time the count starts again from 0 (R133, R134, R135). The window timer that the
threshold stops keeps its value, which STATUS shows (log entry 23). -/
def Obligations.SagPulsesThrottleTheBank : Prop :=
  ∀ s : State, s.powered = true → s.part = .active ∨ s.part = .plan →
    (s.sag.active = true → exec .sagPulse s = .next s) ∧
    (s.sag.active = false → s.sag.count + 1 < s.setting 12 →
      exec .sagPulse s = .next { s with sag := { s.sag with count := s.sag.count + 1 } }) ∧
    (s.sag.active = false → s.setting 12 ≤ s.sag.count + 1 → exec .sagPulse s = .next (State.markedPart { s with
      sag := { s.sag with count := s.sag.count + 1, windowRuns := false, active := true, throttleMs := s.setting 13 * 1000 } } .throttle)) ∧
    (s.sag.windowRuns = true → exec .sagWindowExpiry s =
      .next { s with sag := { s.sag with count := 0, windowMs := s.setting 11 * 1000 } }) ∧
    (s.sag.active = true → leads (exec .throttleTimerExpiry s) fun t =>
      t.sag = { count := 0, windowMs := s.setting 11 * 1000, windowRuns := true, active := false, throttleMs := 0 } ∧
      t.offGrant = State.offGrant (State.markedPart { s with sag := t.sag } .throttle))

/-! ### Supply, save and resets -/

/-- A power-fail warning in ACTIVE or PLAN opens the save: settling breaks, requests, slots, reservations and wait lists
go, and a waiting host request is answered POWER_FAIL. With the store idle and no outage open, a new mark is made and the
outage timer starts from 0 (R125, R132, R137, R141 to R144, R152). -/
def Obligations.WarningOpensTheSave : Prop :=
  ∀ s : State, s.powered = true →
    exec (.supplyBreak .pfw) s = exec .powerFailWarning s ∧
    (s.sup.pfw = true → exec .powerFailWarning s = .next s) ∧
    (s.sup.pfw = false → s.part ≠ .active → s.part ≠ .plan →
      exec .powerFailWarning s = .next { s with sup := { s.sup with pfw := true, settleMs := 0, settled := false } }) ∧
    (s.sup.pfw = false → s.part = .active ∨ s.part = .plan → leads (exec .powerFailWarning s) fun t =>
      (t.part = .save ∨ t.part = .dark) ∧ t.sup.pfw = true ∧ t.sup.settled = false ∧ t.events.stateChange = true ∧
      t.arb.requests = Vector.replicate 32 none ∧ t.arb.slots = [] ∧ t.heat = HeatUnit.reset ∧ t.store = s.store ∧
      (∀ p, (t.ctx p).map (·.fast) = (s.ctx p).map (·.fast)) ∧
      (s.ctl.queue.any StoreOp.hostWaits = true → t.port.response = some ⟨.powerFail, []⟩ ∧ t.port.state = .ready) ∧
      (∀ r, s.ctl.current = some r → t.part = .save ∧ t.ctl.current = some r ∧ t.ctl.queue = s.ctl.queue.filter StoreOp.keptAtWarning) ∧
      (s.ctl.current = none → s.sup.mark.valid = false →
        t.part = .save ∧ t.sup.mark = ⟨true, (s.sup.mark.seq + 1) % 256, s.sup.uptime⟩ ∧
        t.ctl.queue = .markWrite false :: s.ctl.queue.filter StoreOp.keptAtWarning ∧
        t.backup = { s.backup with timer := 0, running := true, secondMs := 0, valid := s.backup.valid || s.sup.vbkGood }))

/-- A break clears the settle timer; when both lines have been good for the settle time, mains is settled, and a part
that waits in START with its scan done, or in DARK, goes to PLAN (R137, R139, R149), where the first-poll window of pocket 0
opens in the same step (log entry 40). The outage timer stops, its value standing, and begins a whole second when it
resumes (R152). A break of a line that is broken, and a settle time that has run or cannot run, change
nothing (log entry 5). START before its scan is done is not stated here. -/
def Obligations.MainsSettles : Prop :=
  ∀ (input : SupplyReturn) (s : State), s.powered = true →
    (s.sup.mainsOk = true → exec (.supplyBreak .mainsOk) s =
      .next { s with sup := { s.sup with mainsOk := false, settleMs := 0, settled := false } }) ∧
    (s.sup.mainsOk = false → exec (.supplyBreak .mainsOk) s = .next s) ∧
    exec (.mainsOkReturn input) s = .next { s with sup := (match input with
      | .line .mainsOk => { s.sup with mainsOk := true }
      | .line .pfw => { s.sup with pfw := false }
      | .vbk => { s.sup with vbkGood := true }) } ∧
    (s.sup.linesGood = false ∨ s.sup.settled = true → exec .settleTimeReached s = .next s) ∧
    (s.sup.linesGood = true → s.sup.settled = false →
      (s.part ≠ .start → s.part ≠ .dark → exec .settleTimeReached s =
        .next { s with
          sup := { s.sup with settleMs := s.setting 5 * 1000, settled := true }
          backup := { s.backup with secondMs := 0 } }) ∧
      (s.part = .dark ∨ (s.part = .start ∧ s.ctl.scanDone = true) → leads (exec .settleTimeReached s) fun t =>
        t.part = .plan ∧ t.sup.settled = true ∧ t.plan.step = .firstPolls ∧ t.plan.window.map (·.pocket) = some 0 ∧
        t.events.stateChange = true ∧ t.store = s.store ∧ t.ctxs = s.ctxs ∧ t.port = s.port ∧
        t.backup = { s.backup with secondMs := 0 }))

/-- The outage timer counts while it runs and mains is not settled, up to 86,400 s; losing VBK clears backup-valid, and
without core supply the whole domain is lost at the next power-on (R151, R152). VBK that comes back leaves backup-valid as it
is (R151, log entry 28). -/
def Obligations.BackupDomainMeasuresTheOutage : Prop :=
  ∀ (x : SupplyLevels) (s : State),
    (s.backup.running = true → s.backup.lost = false → s.sup.settled = false ∨ s.powered = false →
      exec .outageTimerCount s = .next { s with backup := { s.backup with timer := min 86400 (s.backup.timer + 1) } }) ∧
    (s.backup.running = false ∨ (s.powered = true ∧ s.sup.settled = true) → exec .outageTimerCount s = .next s) ∧
    exec .vbkRetentionLoss s = .next { s with
      sup := { s.sup with vbkGood := false }
      backup := { s.backup with valid := false, lost := s.backup.lost || !s.powered } } ∧
    exec (.mainsOkReturn .vbk) s = .next { s with sup := { s.sup with vbkGood := true } } ∧
    (s.powered = false → s.backup.lost = false → x.vbkGood = true → exec (.powerOn x) s = .next (s.afterReset x s.backup)) ∧
    (s.powered = false → s.backup.lost = true ∨ x.vbkGood = false → exec (.powerOn x) s =
      .next (s.afterReset x { timer := 0, running := false, valid := false, secondMs := 0, lost := false }))

/-- RESET_PIN and a collapse of the core supply lose every volatile item and keep the store and the backup domain; without
core supply the part takes no command but power-on and what happens on the supply lines (R140, R148, R154). -/
def Obligations.ResetsKeepTheStore : Prop :=
  ∀ s : State,
    let lines : SupplyLevels := ⟨s.sup.mainsOk, s.sup.pfw, s.sup.vbkGood⟩
    (s.powered = true → exec .resetPin s = .next (s.afterReset lines s.backup)) ∧
    (s.powered = true → exec .coreSupplyCollapse s = .next { s.afterReset lines
      { s.backup with lost := s.backup.lost || !s.sup.vbkGood } with powered := false }) ∧
    (s.powered = false → ∀ c : Instr, (∀ x, c ≠ .powerOn x) → (∀ l, c ≠ .supplyBreak l) → (∀ l, c ≠ .mainsOkReturn l) →
      c ≠ .outageTimerCount → c ≠ .vbkRetentionLoss → exec c s = .next s)

/-! ### The resume planner -/

/-- A first-poll window that ends by time opens that of the next pocket; after the last one planning begins, with the outage
time as it then stands, and waits for frame reads still to come. A re-poll posts a further POLL while the window is open and
the pocket has no entry (R155, R156, R157, R159). When every frame has been read, the first record's outcome is committed in
the same step: a context with every field dirty and the plan stamp, held LINK where its pocket is not ONLINE, with its checkpoint or its
move enqueued, or a retirement (R56, R171; that the records are committed one operation at a time is log entry 60). -/
def Obligations.FirstPollsGoPocketByPocket : Prop :=
  (∀ (p q : Pocket) (x : PollWindow) (s : State), s.powered = true → s.part = .plan → s.plan.window = some x → x.pocket = p →
    (q.val = p.val + 1 → q.val < s.count → leads (exec (.firstPollWindowEnd p) s) fun t =>
      t.plan = { s.plan with step := .firstPolls, window := some ⟨q, 3000, none⟩ } ∧ t.ctxs = s.ctxs ∧ t.ctl = s.ctl ∧ t.port = s.port ∧
      (s.admits q .poll = true → s.unsent q .poll = false → t.link.queue = s.link.queue ++ [Entry.fresh (some q) .poll])) ∧
    (s.count ≤ p.val + 1 → 0 < s.count → s.opStands (·.isPlannerReadOf 0) = true →
      exec (.firstPollWindowEnd p) s = .next s.planningBegun) ∧
    ((∀ e ∈ s.link.queue, e.isFor p = false) → s.link.queue.length < 32 → exec (.firstPollRepoll p) s =
      .next { s with
        plan := { s.plan with window := some { x with repollMs := none } }
        link := { s.link with queue := s.link.queue ++ [Entry.fresh (some p) .poll] } }) ∧
    ((∃ e ∈ s.link.queue, e.isFor p = true) → exec (.firstPollRepoll p) s = .next s)) ∧
  (∀ (p q : Pocket) (x : Image) (s : State), s.plansFirst p x → s.plan.window.map (·.pocket) = some q →
    (s.planningBegun.planInputs p x).outcome = .retire → leads (exec (.firstPollWindowEnd q) s) fun t =>
      t.plan.step = .commits ∧ t.plan.next = p.val + 1 ∧ t.plan.tOut = s.outageTime ∧ t.ctx p = none ∧ t.events.retired.has p = true ∧
      .retire p x.frame (s.isPinned p) false ∈ t.ctl.queue ∧ t.store = s.store) ∧
  (∀ (p q : Pocket) (x : Image) (f : Fast) (a b : Nat) (s : State), s.plansFirst p x → s.plan.window.map (·.pocket) = some q →
    (s.planningBegun.planInputs p x).outcome = .commit f a b → leads (exec (.firstPollWindowEnd q) s) fun t =>
      t.plan.step = .commits ∧ t.plan.next = p.val + 1 ∧ t.plan.tOut = s.outageTime ∧ t.store = s.store ∧
      (x.commitMove = true → .move p x.frame true ∈ t.ctl.queue) ∧ (x.commitMove = false → .checkpoint p ∈ t.ctl.queue) ∧
      ∃ d, t.ctx p = some d ∧ d.frame = x.frame ∧ d.dirty = allFields s.geometry ∧ d.interval = a ∧ d.length = b ∧
        d.shadow.plan = some ⟨s.sup.mark.seq, s.outageTime.getD 0⟩ ∧ d.shadow.saved = false ∧
        ((s.pocketLink p).state = .online ∨ f.phase = .staged ∨ f.phase = .done → d.fast = f) ∧
        ((s.pocketLink p).state ≠ .online → f.phase ≠ .staged → f.phase ≠ .done → f.hold ≠ .damaged → d.fast.hold = .link))

/-- R161 and R162: the decay factor is the table's entry shifted right, each entry 2 to the power −k/8 in units of 1/65,536
rounded to nearest, and never rises with the outage; the estimate is the ambient temperature plus the excess scaled by it
and rounded up, lies between the two, and T_res, which the commit keeps, is raised by a measurement above it alone. -/
def Obligations.EstimateIsTheDecayedExcess : Prop :=
  (∀ t h : Nat, t ≤ 86400 → 60 ≤ h → h ≤ 7200 →
    decayFactor none h = 65536 ∧ 8 * t / h ≤ 11520 ∧
    (8 * t / h / 8 < 17 → decayFactor (some t) h = decayTable (8 * t / h % 8) >>> (8 * t / h / 8)) ∧
    (17 ≤ 8 * t / h / 8 → decayFactor (some t) h = 0) ∧ 8 * t / h * h ≤ 8 * t ∧
    (∀ t', t ≤ t' → decayFactor (some t') h ≤ decayFactor (some t) h) ∧ decayFactor (some 86400) 60 = 0 ∧
    0 < decayFactor (some t) 7200) ∧
  (∀ k, k < 8 → (2 * decayTable k - 1) ^ 8 * 2 ^ k < 131072 ^ 8 ∧ 131072 ^ 8 < (2 * decayTable k + 1) ^ 8 * 2 ^ k) ∧
  (∀ ts ta f m : Nat, f ≤ 65536 →
    let e0 := ts - ta
    let e1 := (e0 * f + 65535) / 65536
    estimate ts ta f = ta + e1 ∧ e1 ≤ e0 ∧ (f = 65536 → e1 = e0) ∧ (f = 0 → e1 = 0) ∧ (ts ≤ 200 → e0 * f ≤ 13107200) ∧
    ta ≤ estimate ts ta f ∧ estimate ts ta f ≤ max ta ts ∧
    residual (estimate ts ta f) none = estimate ts ta f ∧ residual (estimate ts ta f) (some m) = max (estimate ts ta f) m) ∧
  ∀ i : PlanInputs,
    i.res = residual (estimate i.savedTemp (i.settings.item 18) (decayFactor i.time (i.settings.item 19))) i.measured ∧
    ∀ f a b, i.outcome = .commit f a b → f.temp = i.res

/-- A record in DONE is retired when the door input is set and auto-retire is on, takes hold DOOR when it is off, and is
otherwise unchanged; a record in STAGED is unchanged, whatever the door (R170). Both get the commit fields (R171) and no
class, and an interrupted phase of the image goes (log entry 48). An image that is DAMAGED, or held so, is decided by an
earlier rule; a DOOR or LINK hold of the image has been dropped (R164). -/
def Obligations.DoneAndStagedStayAsTheyWere : Prop :=
  ∀ i : PlanInputs, i.damagedRecord = false → i.fast.hold ≠ .damaged →
    let f : Fast := { i.fast with
      status := .none, cls := none, level := none, interrupted := none
      hold := if i.fast.hold = .door ∨ i.fast.hold = .link then .none else i.fast.hold
      outage := min 255 (i.fast.outage + 1), temp := i.res }
    (i.fast.phase = .done →
      (i.door = true → i.settings.item 2 = 1 → i.outcome = .retire) ∧
      (i.door = true → i.settings.item 2 ≠ 1 → i.outcome = .commit { f with hold := .door } i.plan.interval i.plan.length) ∧
      (i.door = false → i.outcome = .commit f i.plan.interval i.plan.length)) ∧
    (i.fast.phase = .staged → i.outcome = .commit f i.plan.interval i.plan.length)

/-- Whatever is planned, a load goes on heating by itself only below the hazard temperature, with its door shut, without
ASK, from an image that is whole, as REHEAT at level 9; a DAMAGED image is cooled first at level 15, and a HEAT or COOL
record at or above its threshold at 12 to 14; a class goes with PENDING and its own levels; and the outage count rises
by one, up to 255 (R164 to R171). Which images are DAMAGED and which for move rests in part on log entry 22. -/
def Obligations.PlannerNeverHeatsAHotLoad : Prop :=
  ∀ i : PlanInputs,
    (i.image.damaged = true → ∃ f a b, i.outcome = .commit f a b ∧ f.phase = .cool ∧ f.hold = .none ∧ f.status = .pending ∧
      f.cls = some .coolFirst ∧ f.level = some 15 ∧ f.cool = i.settings.item 22) ∧
    (i.damagedRecord = false → i.fast.hold ≠ .damaged → i.fast.phase = .heat ∨ i.fast.phase = .cool →
      i.threshold i.fast ≤ i.res → ∃ f a b, i.outcome = .commit f a b ∧ f.phase = .cool ∧ f.hold = .none ∧
        f.status = .pending ∧ f.cls = some .coolFirst ∧ f.level = some (12 + min 2 ((i.res - i.settings.item 20) / 8)) ∧
        f.interrupted.isSome = true ∧ i.settings.item 22 ≤ f.cool) ∧
    ∀ f a b, i.outcome = .commit f a b →
      f.outage = min 255 (i.fast.outage + 1) ∧
      (f.phase = .heat → f.hold = .none → i.res < i.settings.item 20 ∧ i.door = false ∧ i.statics.options.ask = false ∧
        i.image.damaged = false ∧ f.status = .pending ∧ f.cls = some .reheat ∧ f.level = some 9) ∧
      (f.status ≠ .running) ∧ (f.status = .none → f.cls = none ∧ f.level = none) ∧
      (f.status = .pending → ∃ n, f.level = some n ∧
        ((f.cls = some .coolFirst ∧ 12 ≤ n ∧ n ≤ 15 ∧ f.phase = .cool) ∨ (f.cls = some .reheat ∧ n = 9 ∧ f.phase = .heat) ∨
          (f.cls = some .creaseOn ∧ n = 5 ∧ f.phase = .crease)))

/-! ### The whole part -/

/-- The part state changes only as R139 gives, and each change sets a STATE_CHANGE event. -/
def Obligations.PartStateMovesAlongItsArcs : Prop :=
  ∀ (c : Instr) (s t : State), exec c s = .next t → t.part ≠ s.part → partArc s.part t.part = true ∧ t.events.stateChange = true

/-- Every step keeps the store's conditions in their canonical form (log entry 1). -/
def Obligations.StoreFormIsKept : Prop := ∀ s t : State, s.storeWf → step s = .next t → t.storeWf

/-- Every step keeps each supply phase's reservations within its budget (R126 to R132). -/
def Obligations.HeatBudgetIsKept : Prop := ∀ s t : State, s.heatKept → step s = .next t → t.heatKept

/-- Every step keeps the start slots within the slot count and apart from the start request set (R112, R119 to R125). -/
def Obligations.StartSlotsAreKept : Prop := ∀ s t : State, s.slotsKept → step s = .next t → t.slotsKept

/-- The invariants hold right after reset. -/
def Obligations.InvariantsHoldAtReset : Prop := State.reset.storeWf ∧ State.reset.heatKept ∧ State.reset.slotsKept
end

