-- ==== Sys2Proof/Laws/Arbiter.lean ====
section
/-! SUPPORT. The start arbiter and the heat budget unit: who holds a slot, a request, a reservation, and what grants and
serving change of them (R112 to R131). -/

namespace Sys2Proof.Machine

/-! ### Operations that leave the arbiter -/

@[simp] theorem Work.join_arb (w : Work) (p : Pocket) (k : CommandKind) : (w.join p k).arb = w.arb := by unfold Work.join; split <;> rfl
@[simp] theorem Work.releaseReservation_arb (w : Work) (p : Pocket) : (w.releaseReservation p).arb = w.arb := by unfold Work.releaseReservation; split <;> rfl
@[simp] theorem Work.leaveWaitList_arb (w : Work) (p : Pocket) : (w.leaveWaitList p).arb = w.arb := by
  unfold Work.leaveWaitList Work.setWaitList; dsimp only; split
  · split <;> rfl
  · rfl
@[simp] theorem Work.releaseHeat_arb (w : Work) (p : Pocket) : (w.releaseHeat p).arb = w.arb := by simp [Work.releaseHeat]
@[simp] theorem Work.demandRead_arb (w : Work) (p : Pocket) (why : ReadPurpose) : (w.demandRead p why).arb = w.arb := by unfold Work.demandRead; split <;> rfl
@[simp] theorem Work.postStop_arb (w : Work) (p : Pocket) : (w.postStop p).arb = w.arb := by unfold Work.postStop; split <;> simp
@[simp] theorem Work.postHeatOff_arb (w : Work) (p : Pocket) : (w.postHeatOff p).arb = w.arb := by unfold Work.postHeatOff; split <;> simp
@[simp] theorem Work.postHeatOn_arb (w : Work) (p : Pocket) : (w.postHeatOn p).arb = w.arb := by unfold Work.postHeatOn; split <;> simp
@[simp] theorem Work.postRun_arb (w : Work) (p : Pocket) : (w.postRun p).arb = w.arb := by unfold Work.postRun; split <;> simp
@[simp] theorem Work.postPoll_arb (w : Work) (p : Pocket) : (w.postPoll p).arb = w.arb := by unfold Work.postPoll; split <;> simp
@[simp] theorem Work.postClearDoor_arb (w : Work) (p : Pocket) : (w.postClearDoor p).arb = w.arb := by unfold Work.postClearDoor; split <;> simp
@[simp] theorem Work.postProbe_arb (w : Work) (p : Pocket) : (w.postProbe p).arb = w.arb := by unfold Work.postProbe; split <;> simp
@[simp] theorem Work.endExchange_arb (w : Work) : w.endExchange.arb = w.arb := by simp [Work.endExchange]
@[simp] theorem Work.convergeMotor_arb (w : Work) (p : Pocket) : (w.convergeMotor p).arb = w.arb := by
  unfold Work.convergeMotor; repeat' split
  all_goals simp
@[simp] theorem Work.convergeLevel_arb (w : Work) (p : Pocket) : (w.convergeLevel p).arb = w.arb := by
  unfold Work.convergeLevel; repeat' split
  all_goals simp
@[simp] theorem Work.convergeHeat_arb (w : Work) (p : Pocket) : (w.convergeHeat p).arb = w.arb := by
  unfold Work.convergeHeat; repeat' split
  all_goals simp
@[simp] theorem Work.convergeOne_arb (w : Work) (p : Pocket) : (w.convergeOne p).arb = w.arb := by
  unfold Work.convergeOne; split <;> simp
@[simp] theorem Work.admitProbes_arb (w : Work) : w.admitProbes.arb = w.arb := by
  unfold Work.admitProbes; split
  · exact foldl_view State.arb _ (fun w p => by split <;> simp) _ w
  · rfl
@[simp] theorem Work.convergeWaiting_arb (w : Work) (m : Mask) (f : Pocket → Bool) : (w.convergeWaiting m f).arb = w.arb :=
  foldl_view State.arb _ (fun w p => by split <;> simp) _ w
@[simp] theorem Work.admitHeld_arb (w : Work) : w.admitHeld.arb = w.arb := by
  unfold Work.admitHeld; split <;> simp
@[simp] theorem Work.admitHeldBefore_arb (w : Work) (p : Pocket) : (w.admitHeldBefore p).arb = w.arb := by
  unfold Work.admitHeldBefore
  split
  · split
    · exact Work.convergeWaiting_arb { w with room := none } _ _
    · simp
  · rfl
@[simp] theorem Work.converge_arb (w : Work) (p : Pocket) : (w.converge p).arb = w.arb := by simp [Work.converge]
@[simp] theorem Work.endAuthority_arb (w : Work) (p : Pocket) : (w.endAuthority p).arb = w.arb := by unfold Work.endAuthority; split <;> simp
@[simp] theorem Work.rederive_arb (w : Work) (p : Pocket) : (w.rederive p).arb = w.arb := by
  unfold Work.rederive; dsimp only; split <;> simp
@[simp] theorem Work.reserve_arb (w : Work) (p : Pocket) : (w.reserve p).arb = w.arb := by simp [Work.reserve]
@[simp] theorem Work.setWaitList_arb (w : Work) (x : SupplyPhase) (l : List Pocket) : (w.setWaitList x l).arb = w.arb := by cases x <;> rfl
@[simp] theorem Work.setLinkState_arb (w : Work) (p : Pocket) (x : LinkState) (c : Option FaultCause) : (w.setLinkState p x c).arb = w.arb := by unfold Work.setLinkState; split <;> simp
@[simp] theorem Work.onCtx_arb (w : Work) (p : Pocket) (f : Context → Context) : (w.onCtx p f).arb = w.arb := by unfold Work.onCtx; split <;> simp
@[simp] theorem Work.onFast_arb (w : Work) (p : Pocket) (f : Fast → Fast) : (w.onFast p f).arb = w.arb := by simp [Work.onFast]
@[simp] theorem Work.recordFault_arb (w : Work) (p : Pocket) (x : FaultCause) : (w.recordFault p x).arb = w.arb := by unfold Work.recordFault; split <;> simp
@[simp] theorem Work.demandCheckpoint_arb (w : Work) (p : Pocket) : (w.demandCheckpoint p).arb = w.arb := by unfold Work.demandCheckpoint; split <;> simp

@[simp] theorem Work.servePhase_arb (x : SupplyPhase) : ∀ (n : Nat) (w : Work), (Work.servePhase x n w).arb = w.arb
  | 0, _ => rfl
  | n + 1, w => by
    unfold Work.servePhase
    split
    · split
      · rw [Work.servePhase_arb x n]; simp
      · rfl
    · rfl

@[simp] theorem Work.serveLists_arb (w : Work) : w.serveLists.arb = w.arb := by
  unfold Work.serveLists; split <;> simp

/-! ### Grants -/

/-- A grant takes the request out of the set and makes the slot, in AWAIT_ACK at the granted level (R120). -/
theorem Work.grantTo_arb (w : Work) (p : Pocket) (level : Nat) :
    (w.grantTo p level).arb = { w.arb with
      requests := upd w.arb.requests p none
      slots := w.arb.slots ++ [{ pocket := p, stage := .awaitAck, level := level, timerMs := w.setting 10 * 100, carried := none, doorRefused := false }]
      sinceGrant := some 0 } := by
  unfold Work.grantTo
  simp
  exact ⟨rfl, rfl, rfl⟩

/-- What a command's end may do with start requests: it keeps every slot, and a request is kept or has been granted. -/
structure Arbiter.Grants (a b : Arbiter) : Prop where
  mask : b.mask = a.mask
  slots : ∃ l, b.slots = a.slots ++ l
  requests : ∀ p : Pocket, b.requests[p] = a.requests[p] ∨
    (b.requests[p] = none ∧ (b.slots.find? (·.pocket == p)).isSome = true)

theorem Arbiter.Grants.rfl' (a : Arbiter) : Arbiter.Grants a a := ⟨rfl, ⟨[], by simp⟩, fun _ => .inl rfl⟩

theorem Arbiter.Grants.keepsSlot {a b : Arbiter} (h : Arbiter.Grants a b) {p : Pocket}
    (hs : (a.slots.find? (·.pocket == p)).isSome = true) : (b.slots.find? (·.pocket == p)).isSome = true := by
  obtain ⟨l, hl⟩ := h.slots
  rw [hl, List.find?_append]
  obtain ⟨x, hx⟩ := Option.isSome_iff_exists.1 hs
  simp [hx]

theorem Arbiter.Grants.trans {a b c : Arbiter} (h : Arbiter.Grants a b) (h' : Arbiter.Grants b c) : Arbiter.Grants a c := by
  refine ⟨h'.mask.trans h.mask, ?_, fun p => ?_⟩
  · obtain ⟨l, hl⟩ := h.slots
    obtain ⟨m, hm⟩ := h'.slots
    exact ⟨l ++ m, by rw [hm, hl, List.append_assoc]⟩
  · rcases h'.requests p with e | e
    · rcases h.requests p with f | f
      · exact .inl (e.trans f)
      · exact .inr ⟨e.trans f.1, h'.keepsSlot f.2⟩
    · exact .inr e

theorem Work.grantTo_grants (w : Work) (p : Pocket) (level : Nat) : Arbiter.Grants w.arb (w.grantTo p level).arb := by
  rw [Work.grantTo_arb]
  refine ⟨rfl, ⟨_, rfl⟩, fun q => ?_⟩
  by_cases e : q = p
  · subst e
    exact .inr ⟨upd_self _ _ _, by simp [List.find?_append]⟩
  · exact .inl (upd_other _ _ e)

theorem Work.evaluateGrants_grants : ∀ (n : Nat) (w : Work), Arbiter.Grants w.arb (Work.evaluateGrants n w).arb
  | 0, w => Arbiter.Grants.rfl' w.arb
  | n + 1, w => by
    unfold Work.evaluateGrants
    split
    · split
      · exact (Work.grantTo_grants w _ _).trans (Work.evaluateGrants_grants n _)
      · exact Arbiter.Grants.rfl' w.arb
    · exact Arbiter.Grants.rfl' w.arb

theorem foldl_arb {α : Type} (f : Work → α → Work) (h : ∀ w a, (f w a).arb = w.arb) (l : List α) (w : Work) :
    (l.foldl f w).arb = w.arb := foldl_view State.arb f h l w

theorem Work.settleOnce_grants (w : Work) : Arbiter.Grants w.arb w.settleOnce.arb := by
  have conv (w : Work) (g : Pocket → Bool) :
      (allPockets.foldl (fun w p => if g p then w.convergeOne p else w) w).arb = w.arb :=
    foldl_arb _ (fun w p => by split <;> simp) _ w
  have probes (w : Work) (b : Bool) : (if b then w.admitProbes else w).arb = w.arb := by split <;> simp
  have serve (w : Work) (b : Bool) : (if b then w.serveLists else w).arb = w.arb := by split <;> simp
  have grants (w : Work) (b : Bool) : Arbiter.Grants w.arb (if b then Work.evaluateGrants 5 w else w).arb := by
    split
    · exact Work.evaluateGrants_grants 5 w
    · exact Arbiter.Grants.rfl' _
  unfold Work.settleOnce
  dsimp only
  refine Eq.mp (congrArg (fun a => Arbiter.Grants a _) ?_) (grants _ w.admitHeld.grant)
  rw [serve, probes, conv _ (fun p => w.admitHeld.drop || w.admitHeld.gone.has p), Work.debtFree_toState, Work.admitHeld_arb]

theorem Work.settle_grants : ∀ (n : Nat) (w : Work), Arbiter.Grants w.arb (Work.settle n w).arb
  | 0, w => Arbiter.Grants.rfl' w.arb
  | n + 1, w => by
    unfold Work.settle
    split
    · exact Arbiter.Grants.rfl' w.arb
    · exact (Work.settleOnce_grants w).trans (Work.settle_grants n _)

/-- What the end of a command does with start requests and slots (R119). -/
theorem Work.finish_grants (w : Work) : Arbiter.Grants w.arb w.finish.arb := Work.settle_grants 8 w

/-- A request made, or carried on the pocket's slot, is still wanted when the command ends. -/
theorem Work.makeRequest_wants (w : Work) (p : Pocket) (n : Nat) : (w.makeRequest p n).wantsStart p n := by
  unfold Work.makeRequest
  split
  · rename_i x hx
    refine .inr ?_
    have : w.arb.slots.find? (·.pocket == p) = some x := hx
    have h1 : (w.arb.slots.find? (·.pocket == p)).isSome = true := by rw [this]; rfl
    rw [List.find?_isSome] at h1
    obtain ⟨y, hy, hyp⟩ := h1
    show ((w.arb.slots.map _).find? fun (x : Slot) => x.pocket == p).isSome = true
    rw [List.find?_isSome]
    refine ⟨_, List.mem_map.2 ⟨y, hy, rfl⟩, ?_⟩
    have hyp' : y.pocket = p := by simpa using hyp
    simp [hyp']
  · split
    · rename_i old h
      split
      · exact .inl ⟨n, Nat.le_refl _, upd_self _ _ _⟩
      · rename_i hn
        exact .inl ⟨old, Nat.le_of_not_lt hn, h⟩
    · exact .inl ⟨n, Nat.le_refl _, upd_self _ _ _⟩

theorem wantsStart_of_arb {s t : State} {p : Pocket} {n : Nat} (h : t.arb = s.arb) (hs : s.wantsStart p n) : t.wantsStart p n := by
  unfold State.wantsStart State.request State.slotOf at *
  rw [h]; exact hs

theorem Work.finish_wants {w : Work} {p : Pocket} {n : Nat} (h : w.wantsStart p n) : w.finish.wantsStart p n := by
  have g := w.finish_grants
  rcases h with ⟨m, hm, hr⟩ | hs
  · rcases g.requests p with e | e
    · exact .inl ⟨m, hm, e.trans hr⟩
    · exact .inr e.2
  · exact .inr (g.keepsSlot hs)

/-- A pocket without a request has none when the command ends. -/
theorem Work.finish_request_none {w : Work} {p : Pocket} (h : w.request p = none) : w.finish.request p = none := by
  rcases w.finish_grants.requests p with e | e
  · exact e.trans h
  · exact e.1

end Sys2Proof.Machine
end

