-- ==== Sys2Proof/Laws/Operands.lean ====
section
/-! SUPPORT. Laws of the operand forms: byte strings and the numbers they spell (R197), the CRC-8 (R198), clamping. -/

namespace Sys2Proof.Machine

/-! ### Bytes and numbers -/

@[simp] theorem beBytes_length (k n : Nat) : (beBytes k n).length = k := by
  induction k with
  | zero => rfl
  | succ k ih => simp [beBytes, ih]

/-- A number that fits `k` bytes is read back from them; one that does not fit loses its high bytes. -/
theorem beNat_beBytes (k n : Nat) : beNat (beBytes k n) = n % 256 ^ k := by
  have fold : ∀ (k n x : Nat), (beBytes k n).foldl (fun a b => a * 256 + b.toNat) x = x * 256 ^ k + n % 256 ^ k := by
    intro k
    induction k with
    | zero => intro n x; simp [beBytes, Nat.mod_one]
    | succ k ih =>
      intro n x
      simp only [beBytes, List.foldl_cons, ih, BitVec.toNat_ofNat]
      have h2 : n % 256 ^ (k + 1) = n / 256 ^ k % 256 * 256 ^ k + n % 256 ^ k := by
        rw [Nat.pow_succ, Nat.mod_mul, Nat.mul_comm (256 ^ k), Nat.add_comm]
      rw [h2, show (2 : Nat) ^ 8 = 256 from rfl, Nat.pow_succ, Nat.add_mul, Nat.add_assoc, Nat.mul_assoc, Nat.mul_comm 256]
  simpa [beNat] using fold k n 0

theorem beNat_beBytes_of_fits {k n : Nat} (h : fits k n = true) : beNat (beBytes k n) = n := by
  rw [beNat_beBytes]
  exact Nat.mod_eq_of_lt (by simpa [fits] using h)

/-- One byte that a value fits. -/
theorem byte_of_fits {n : Nat} (h : fits 1 n = true) : (BitVec.ofNat 8 n).toNat = n := by
  have : n < 256 := by simpa [fits] using h
  simp only [BitVec.toNat_ofNat]
  omega

/-! ### The check code -/

/-- A byte taken into a check code equal to it leaves 0. -/
theorem crcByte_self (c : Byte) : crcByte c c = 0 := by
  have : crcBit 0 = 0 := by decide
  simp only [crcByte, BitVec.xor_self]
  simp only [show (0#8 : Byte) = 0 from rfl, this]

theorem crc8_append (a b : List Byte) : crc8 (a ++ b) = b.foldl crcByte (crc8 a) := by simp [crc8]

/-! ### Requests read by their codes (section 11.2) -/

@[simp] theorem readRequest_openRecord (p : Nat) (l o h1 h0 c1 c0 : Byte) :
    readRequest 1 p [l, o, h1, h0, c1, c0] = .request (.openRecord p ⟨l.toNat, o, beNat [h1, h0], beNat [c1, c0], none⟩) := rfl
@[simp] theorem readRequest_openRecord_plan (p : Nat) (l o h1 h0 c1 c0 t i1 i0 n w1 w0 : Byte) :
    readRequest 1 p [l, o, h1, h0, c1, c0, t, i1, i0, n, w1, w0] = .request (.openRecord p ⟨l.toNat, o, beNat [h1, h0], beNat [c1, c0], some ⟨t.toNat, beNat [i1, i0], n.toNat, beNat [w1, w0]⟩⟩) := rfl
@[simp] theorem readRequest_start (p : Nat) :
    readRequest 2 p [] = .request (.start p) := rfl
@[simp] theorem readRequest_extend (p : Nat) (a b : Byte) :
    readRequest 3 p [a, b] = .request (.extend p (beNat [a, b])) := rfl
@[simp] theorem readRequest_endHeat (p : Nat) :
    readRequest 4 p [] = .request (.endHeat p) := rfl
@[simp] theorem readRequest_setHeat (p : Nat) (a : Byte) :
    readRequest 5 p [a] = .request (.setHeat p a.toNat) := rfl
@[simp] theorem readRequest_setOptions (p : Nat) (a b : Byte) :
    readRequest 6 p [a, b] = .request (.setOptions p a b) := rfl
@[simp] theorem readRequest_retire (p : Nat) :
    readRequest 7 p [] = .request (.retire p) := rfl
@[simp] theorem readRequest_lookup (p : Nat) :
    readRequest 8 p [] = .request (.lookup p) := rfl
@[simp] theorem readRequest_hold (p : Nat) :
    readRequest 9 p [] = .request (.hold p) := rfl
@[simp] theorem readRequest_release (p : Nat) :
    readRequest 10 p [] = .request (.release p) := rfl
@[simp] theorem readRequest_holdMask (p : Nat) (a b c d e f g h : Byte) :
    readRequest 11 p [a, b, c, d, e, f, g, h] = .request (.holdMask (BitVec.ofNat 32 (beNat [a, b, c, d])) (BitVec.ofNat 32 (beNat [e, f, g, h]))) := rfl
@[simp] theorem readRequest_clearPocket (p : Nat) :
    readRequest 12 p [] = .request (.clearPocket p) := rfl
@[simp] theorem readRequest_remap (p : Nat) :
    readRequest 13 p [] = .request (.remap p) := rfl
@[simp] theorem readRequest_status (p : Nat) :
    readRequest 14 p [] = .request (.status) := rfl
@[simp] theorem readRequest_events (p : Nat) :
    readRequest 15 p [] = .request (.events) := rfl
@[simp] theorem readRequest_storeReport (p : Nat) :
    readRequest 16 p [] = .request (.storeReport) := rfl
@[simp] theorem readRequest_clearLatch (p : Nat) :
    readRequest 17 p [] = .request (.clearLatch) := rfl
@[simp] theorem readRequest_enterCommission (p : Nat) :
    readRequest 18 p [] = .request (.enterCommission) := rfl
@[simp] theorem readRequest_format (p : Nat) (a b : Byte) :
    readRequest 19 p [a, b] = .request (.format a.toNat b.toNat) := rfl
@[simp] theorem readRequest_setSetting (p : Nat) (i a b c d : Byte) :
    readRequest 20 p [i, a, b, c, d] = .request (.setSetting i.toNat (beNat [a, b, c, d])) := rfl
@[simp] theorem readRequest_getSetting (p : Nat) (a : Byte) :
    readRequest 21 p [a] = .request (.getSetting a.toNat) := rfl
@[simp] theorem readRequest_leaveCommission (p : Nat) :
    readRequest 22 p [] = .request (.leaveCommission) := rfl

/-! ### Clamping -/

theorem clampTo_between {lo hi x : Nat} (h : lo ≤ hi) : lo ≤ clampTo lo hi x ∧ clampTo lo hi x ≤ hi := by
  unfold clampTo
  repeat' split
  all_goals omega

theorem clampTo_of_between {lo hi x : Nat} (h : lo ≤ x ∧ x ≤ hi) : clampTo lo hi x = x := by
  unfold clampTo
  repeat' split
  all_goals omega

end Sys2Proof.Machine
end

