-- ==== Sys2Proof/Laws/Commands.lean ====
section
/-! SUPPORT. How a command is taken: with supply or without, and what the host port does with a request before its owner
sees it (R140, R178 to R181). -/

namespace Sys2Proof.Machine

/-- With core supply a command runs and ends. -/
theorem powered_on {s : State} (h : s.powered = true) (body : Work → Work) :
    powered s body = .next (body (Work.begin s)).finish := by simp [powered, h]

/-- Without core supply it has no effect (R140). -/
theorem powered_off {s : State} (h : s.powered = false) (body : Work → Work) : powered s body = .next s := by
  simp [powered, h]

/-- With core supply a command that ends an exchange runs and sends a broadcast that waits (R111). -/
theorem onExchange_on {s : State} (h : s.powered = true) (body : Work → Work) :
    onExchange s body = .next (body (Work.begin s)).sendBroadcast.finish := powered_on h _

/-- A request command is its REQUEST frame, handed to its owner (R181). -/
theorem exec_request {c : Instr} {r : HostReq} (s : State) (h : hostRequest c = some r) :
    exec c s = powered s fun w => w.requestFrame r (·.own r) := by
  cases c <;> simp [hostRequest] at h <;> subst h <;> rfl

/-- On a BUSY port a request is dropped (R179). -/
theorem requestFrame_busy (w : Work) (r : HostReq) (o : Work → Work) (h : w.port.state = .busy) :
    w.requestFrame r o = w.shiftStatus.dropRequest := by
  unfold Work.requestFrame
  exact if_pos h

/-- A request that the part state turns away is answered at once (R181 step 3). -/
theorem requestFrame_away (w : Work) (r : HostReq) (o : Work → Work) (h : w.port.state ≠ .busy) {x : Result}
    (ht : turnedAway w.part r = some x) : w.requestFrame r o = (w.shiftStatus.takeRequest r).respond x [] := by
  unfold Work.requestFrame
  rw [if_neg (by exact h)]
  have : turnedAway (w.shiftStatus.takeRequest r).part r = some x := ht
  simp only [this]

/-- Any other request goes to its owner (R181 step 4). -/
theorem requestFrame_taken (w : Work) (r : HostReq) (o : Work → Work) (h : w.port.state ≠ .busy)
    (ht : turnedAway w.part r = none) : w.requestFrame r o = o (w.shiftStatus.takeRequest r) := by
  unfold Work.requestFrame
  rw [if_neg (by exact h)]
  have : turnedAway (w.shiftStatus.takeRequest r).part r = none := ht
  simp only [this]

/-- The pocket of a request below P. -/
theorem State.pocketInRange_of_lt {s : State} {p : Pocket} (h : p.val < s.count) : s.pocketInRange p.val = some p := by
  simp [State.pocketInRange, h]

/-- An operation in progress of the kind an end names. -/
theorem State.inProgress_of_current {s : State} {r : Running} {f : StoreOp → Bool} (h : s.ctl.current = some r)
    (hf : f r.op = true) : s.inProgress f = some r := by simp [State.inProgress, h, hf]

end Sys2Proof.Machine
end

