-- ==== Sys2Proof/Laws/PerInstr.lean ====
section
/-! SUPPORT. For every command: what a well-formed one carries. -/

namespace Sys2Proof.Laws.CommandOperands

open Sys2Proof Sys2Proof.Machine

/-- A well-formed command that is a host request fits the fields of its frame, with a payload of at most 24 bytes
(section 11.2), and the words that a well-formed store event finds failed are words of the array (R32). -/
def Statement (i : Instr) : Prop :=
  wellFormed i = true →
    (∀ r, hostRequest i = some r → reqFits r = true ∧ (reqPayload r).length ≤ 24) ∧
    ∀ x ∈ (foundBy i).pre ++ (foundBy i).post, x.1 < Config.storeWords

/-- No request has a payload longer than 24 bytes (section 11.2). -/
theorem payload_short (r : HostReq) : (reqPayload r).length ≤ 24 := by
  cases r with
  | openRecord p a => cases h : a.plan <;> simp [reqPayload, h, planBytes]
  | _ => simp [reqPayload]

theorem of_wellFormed (i : Instr) : Statement i := by
  intro h
  simp only [wellFormed, Bool.and_eq_true] at h
  refine ⟨fun r hr => ⟨?_, payload_short r⟩, ?_⟩
  · simpa [hr] using h.1.1
  · exact fun x hx => by simpa using List.all_eq_true.mp h.1.2 x hx

theorem openRecord (pocket : Nat) (args : OpenArgs) : Statement (.openRecord pocket args) := of_wellFormed (.openRecord pocket args)
theorem start (pocket : Nat) : Statement (.start pocket) := of_wellFormed (.start pocket)
theorem extend (pocket : Nat) (seconds : Nat) : Statement (.extend pocket seconds) := of_wellFormed (.extend pocket seconds)
theorem endHeat (pocket : Nat) : Statement (.endHeat pocket) := of_wellFormed (.endHeat pocket)
theorem setHeat (pocket : Nat) (level : Nat) : Statement (.setHeat pocket level) := of_wellFormed (.setHeat pocket level)
theorem setOptions (pocket : Nat) (set clear : Byte) : Statement (.setOptions pocket set clear) := of_wellFormed (.setOptions pocket set clear)
theorem retire (pocket : Nat) : Statement (.retire pocket) := of_wellFormed (.retire pocket)
theorem lookup (pocket : Nat) : Statement (.lookup pocket) := of_wellFormed (.lookup pocket)
theorem hold (pocket : Nat) : Statement (.hold pocket) := of_wellFormed (.hold pocket)
theorem release (pocket : Nat) : Statement (.release pocket) := of_wellFormed (.release pocket)
theorem holdMask (set clear : Mask) : Statement (.holdMask set clear) := of_wellFormed (.holdMask set clear)
theorem clearPocket (pocket : Nat) : Statement (.clearPocket pocket) := of_wellFormed (.clearPocket pocket)
theorem remap (pocket : Nat) : Statement (.remap pocket) := of_wellFormed (.remap pocket)
theorem status : Statement .status := of_wellFormed .status
theorem events : Statement .events := of_wellFormed .events
theorem storeReport : Statement .storeReport := of_wellFormed .storeReport
theorem clearLatch : Statement .clearLatch := of_wellFormed .clearLatch
theorem enterCommission : Statement .enterCommission := of_wellFormed .enterCommission
theorem format (geometry count : Nat) : Statement (.format geometry count) := of_wellFormed (.format geometry count)
theorem setSetting (item value : Nat) : Statement (.setSetting item value) := of_wellFormed (.setSetting item value)
theorem getSetting (item : Nat) : Statement (.getSetting item) := of_wellFormed (.getSetting item)
theorem leaveCommission : Statement .leaveCommission := of_wellFormed .leaveCommission
theorem badFrame (bytes : List Byte) : Statement (.badFrame bytes) := of_wellFormed (.badFrame bytes)
theorem droppedRequest : Statement .droppedRequest := of_wellFormed .droppedRequest
theorem fetch (shifted : Nat) : Statement (.fetch shifted) := of_wellFormed (.fetch shifted)
theorem storeOperationServe : Statement .storeOperationServe := of_wellFormed .storeOperationServe
theorem translationReadEnd (found : Findings) : Statement (.translationReadEnd found) := of_wellFormed (.translationReadEnd found)
theorem staticReadEnd (found : Findings) : Statement (.staticReadEnd found) := of_wellFormed (.staticReadEnd found)
theorem staticWriteEnd (found : Findings) : Statement (.staticWriteEnd found) := of_wellFormed (.staticWriteEnd found)
theorem checkpointEnd (found : Findings) : Statement (.checkpointEnd found) := of_wellFormed (.checkpointEnd found)
theorem moveEnd (found : Findings) : Statement (.moveEnd found) := of_wellFormed (.moveEnd found)
theorem openOperationEnd (found : Findings) : Statement (.openOperationEnd found) := of_wellFormed (.openOperationEnd found)
theorem retireMapWriteEnd (found : Findings) : Statement (.retireMapWriteEnd found) := of_wellFormed (.retireMapWriteEnd found)
theorem retireOperationEnd (found : Findings) : Statement (.retireOperationEnd found) := of_wellFormed (.retireOperationEnd found)
theorem remapWriteEnd (found : Findings) : Statement (.remapWriteEnd found) := of_wellFormed (.remapWriteEnd found)
theorem markWriteEnd : Statement .markWriteEnd := of_wellFormed .markWriteEnd
theorem settingsWriteEnd : Statement .settingsWriteEnd := of_wellFormed .settingsWriteEnd
theorem formatEnd (found : Findings) : Statement (.formatEnd found) := of_wellFormed (.formatEnd found)
theorem plannerFrameReadEnd (found : Findings) : Statement (.plannerFrameReadEnd found) := of_wellFormed (.plannerFrameReadEnd found)
theorem startScanEnd (found : Findings) : Statement (.startScanEnd found) := of_wellFormed (.startScanEnd found)
theorem patrolRead (found : Findings) : Statement (.patrolRead found) := of_wellFormed (.patrolRead found)
theorem clockStep : Statement .clockStep := of_wellFormed .clockStep
theorem heatExit (pocket : Pocket) : Statement (.heatExit pocket) := of_wellFormed (.heatExit pocket)
theorem coolExit (pocket : Pocket) : Statement (.coolExit pocket) := of_wellFormed (.coolExit pocket)
theorem creaseWindowEnd (pocket : Pocket) : Statement (.creaseWindowEnd pocket) := of_wellFormed (.creaseWindowEnd pocket)
theorem tumbleEnd (pocket : Pocket) : Statement (.tumbleEnd pocket) := of_wellFormed (.tumbleEnd pocket)
theorem tumbleDue (pocket : Pocket) : Statement (.tumbleDue pocket) := of_wellFormed (.tumbleDue pocket)
theorem checkpointTimerExpiry (pocket : Pocket) : Statement (.checkpointTimerExpiry pocket) := of_wellFormed (.checkpointTimerExpiry pocket)
theorem linkFrameSend : Statement .linkFrameSend := of_wellFormed .linkFrameSend
theorem replyWindowExpiry : Statement .replyWindowExpiry := of_wellFormed .replyWindowExpiry
theorem statusArrival (pocket : Pocket) (report : StatusReply) : Statement (.statusArrival pocket report) := of_wellFormed (.statusArrival pocket report)
theorem runAck (pocket : Pocket) : Statement (.runAck pocket) := of_wellFormed (.runAck pocket)
theorem heatOnAck (pocket : Pocket) : Statement (.heatOnAck pocket) := of_wellFormed (.heatOnAck pocket)
theorem notReadyRetry (pocket : Pocket) (why : RetryReason) : Statement (.notReadyRetry pocket why) := of_wellFormed (.notReadyRetry pocket why)
theorem notReadyDoorOpen (pocket : Pocket) : Statement (.notReadyDoorOpen pocket) := of_wellFormed (.notReadyDoorOpen pocket)
theorem postedReply (pocket : Pocket) (answer : PostedAnswer) : Statement (.postedReply pocket answer) := of_wellFormed (.postedReply pocket answer)
theorem replyDiscarded : Statement .replyDiscarded := of_wellFormed .replyDiscarded
theorem retryTimeReached (pocket : Pocket) : Statement (.retryTimeReached pocket) := of_wellFormed (.retryTimeReached pocket)
theorem pollTurn (pocket : Pocket) : Statement (.pollTurn pocket) := of_wellFormed (.pollTurn pocket)
theorem offlinePollTimerExpiry (pocket : Pocket) : Statement (.offlinePollTimerExpiry pocket) := of_wellFormed (.offlinePollTimerExpiry pocket)
theorem startWindowEnd (pocket : Pocket) : Statement (.startWindowEnd pocket) := of_wellFormed (.startWindowEnd pocket)
theorem grantTimeout (pocket : Pocket) : Statement (.grantTimeout pocket) := of_wellFormed (.grantTimeout pocket)
theorem startGapEnd : Statement .startGapEnd := of_wellFormed .startGapEnd
theorem sagPulse : Statement .sagPulse := of_wellFormed .sagPulse
theorem sagWindowExpiry : Statement .sagWindowExpiry := of_wellFormed .sagWindowExpiry
theorem throttleTimerExpiry : Statement .throttleTimerExpiry := of_wellFormed .throttleTimerExpiry
theorem powerFailWarning : Statement .powerFailWarning := of_wellFormed .powerFailWarning
theorem saveWriteEnd (found : Findings) : Statement (.saveWriteEnd found) := of_wellFormed (.saveWriteEnd found)
theorem supplyBreak (line : SupplyLine) : Statement (.supplyBreak line) := of_wellFormed (.supplyBreak line)
theorem settleTimeReached : Statement .settleTimeReached := of_wellFormed .settleTimeReached
theorem outageTimerCount : Statement .outageTimerCount := of_wellFormed .outageTimerCount
theorem vbkRetentionLoss : Statement .vbkRetentionLoss := of_wellFormed .vbkRetentionLoss
theorem powerOn (levels : SupplyLevels) : Statement (.powerOn levels) := of_wellFormed (.powerOn levels)
theorem resetPin : Statement .resetPin := of_wellFormed .resetPin
theorem coreSupplyCollapse : Statement .coreSupplyCollapse := of_wellFormed .coreSupplyCollapse
theorem firstPollWindowEnd (pocket : Pocket) : Statement (.firstPollWindowEnd pocket) := of_wellFormed (.firstPollWindowEnd pocket)
theorem firstPollRepoll (pocket : Pocket) : Statement (.firstPollRepoll pocket) := of_wellFormed (.firstPollRepoll pocket)
theorem mapRepairEnd (found : Findings) : Statement (.mapRepairEnd found) := of_wellFormed (.mapRepairEnd found)
theorem mainsOkReturn (input : SupplyReturn) : Statement (.mainsOkReturn input) := of_wellFormed (.mainsOkReturn input)

end Sys2Proof.Laws.CommandOperands
end

