-- ==== Sys2Proof/Laws/StoreRun.lean ====
section
/-! SUPPORT. Store operations at work: how an operation runs through its accesses, and what reading and writing a clean word
does (R33, R40). -/

namespace Sys2Proof.Machine

/-! ### Running through the accesses -/

theorem Work.runPlain_done (n : Nat) {w : Work} {r : Running} (h : w.ctl.current = some r) (ht : r.todo = []) :
    Work.runPlain n w = w := by
  cases n with
  | zero => rfl
  | succ n => simp [Work.runPlain, h, ht]

theorem Work.runPlain_move (n : Nat) {w : Work} {r : Running} (h : w.ctl.current = some r) (hm : r.move.isSome = true) :
    Work.runPlain n w = w := by
  cases n with
  | zero => rfl
  | succ n => simp [Work.runPlain, h, hm]

theorem Work.runPlain_step (n : Nat) {w : Work} {r : Running} {a : Access} {rest : List Access} (h : w.ctl.current = some r)
    (hm : r.move = none) (ht : r.todo = a :: rest) : Work.runPlain (n + 1) w = Work.runPlain n w.access := by
  simp [Work.runPlain, h, hm, ht]

theorem Work.runAll_done (n : Nat) {w : Work} {r : Running} (h : w.ctl.current = some r) (ht : r.todo = []) :
    Work.runAll n w = w := by
  cases n with
  | zero => rfl
  | succ n => simp [Work.runAll, h, ht]

theorem Work.runAll_step (n : Nat) {w : Work} {r : Running} {a : Access} {rest : List Access} (h : w.ctl.current = some r)
    (ht : r.todo = a :: rest) : Work.runAll (n + 1) w = Work.runAll n w.access := by simp [Work.runAll, h, ht]

/-- An access of an operation that serves no record. -/
theorem Work.access_plain {w : Work} {r : Running} {a : Access} {rest : List Access} (h : w.ctl.current = some r)
    (ht : r.todo = a :: rest) (hp : r.op.recordPocket = none) :
    w.access = Work.plainAccess { w with ctl := { w.ctl with current := some { r with todo := rest } } } { r with todo := rest } a := by
  simp [Work.access, h, ht, hp]

/-- An access of an operation on the record of `p`, made with its context. -/
theorem Work.access_record {w : Work} {r : Running} {a : Access} {rest : List Access} {p : Pocket} {c : Context}
    (h : w.ctl.current = some r) (ht : r.todo = a :: rest) (hp : r.op.recordPocket = some p) (hs : r.stash = none)
    (hc : w.ctx p = some c) :
    w.access = Work.recordAccess { w with ctl := { w.ctl with current := some { r with todo := rest } } } { r with todo := rest } p c a := by
  have hc' : w.ctxs[p.val] = some c := hc
  simp [Work.access, h, ht, hp, State.opContext, hs, State.ctx, hc']

/-! ### Clean words -/

/-- A clean word is read without any effect (R33). -/
theorem Work.readWord_clean {w : Work} {n : Nat} (h : w.store.flaw n = none) (src : LatchSource) (b : Bool) :
    w.readWord n src b = w := by simp [Work.readWord, h]

theorem State.readable_clean {s : State} {n : Nat} (h : s.store.flaw n = none) : s.readable n = true := by
  simp [State.readable, Store.readable, h]

theorem putFlaw_clean {n : Nat} : ∀ {l : List (Nat × Flaw)}, l.lookup n = none → putFlaw l n none = l
  | [], _ => rfl
  | (m, y) :: r, h => by
    simp only [List.lookup] at h
    unfold putFlaw
    split at h
    · cases h
    · rename_i hm
      have : ¬n = m := by simpa using hm
      split
      · rfl
      · simp only [putFlaw_clean h]

/-- A word that reads clean stays so when it is written. -/
theorem Work.wrote_clean {w : Work} {n : Nat} (h : w.store.flaw n = none) : w.wrote n = w := by
  have : w.store.setFlaw n none = w.store := by
    unfold Store.setFlaw
    split
    · rw [putFlaw_clean h]
    · rfl
  simp [Work.wrote, this]

@[simp] theorem Work.fail_nil (w : Work) : w.fail [] = w := rfl

/-- No failure is met where none is given. -/
theorem Work.meet_clean (s : State) : (Work.begin s).meet noFailures = Work.begin s := rfl

theorem Work.failAfterWrite_clean {w : Work} (h : w.post = []) (n : Nat) : w.failAfterWrite n = w := by
  simp [Work.failAfterWrite, h]

/-- A map write over a clean word, read back clean (R37). -/
theorem Work.writeMap_clean {w : Work} {p : Pocket} (h : w.store.flaw (mapWord p) = none) (hp : w.post = []) (e : MapEntry) :
    w.writeMap p e = { w with store := { w.store with map := upd w.store.map p e },
                              ctl := { w.ctl with mirror := upd w.ctl.mirror p e } } := by
  have hf : ({ w with store := { w.store with map := upd w.store.map p e },
                      ctl := { w.ctl with mirror := upd w.ctl.mirror p e } } : Work).store.flaw (mapWord p) = none := h
  unfold Work.writeMap
  simp only
  rw [Work.wrote_clean hf, Work.failAfterWrite_clean (by exact hp), Work.readWord_clean hf, State.readable_clean hf]
  simp

/-! ### Ends -/

/-- An operation of the kind an end names has run to its end as `w'`, without becoming a move. -/
theorem Work.endWhere_done {w w' : Work} {found : Findings} {f : StoreOp → Bool} {done : Running → Work → Work} {r r' : Running}
    (h : w.ctl.current = some r) (hf : f r.op = true) (hr : Work.runPlain accessLimit (w.meet found) = w')
    (h' : w'.ctl.current = some r') (hm : r'.move = none) : w.endWhere found f done = done r' w' := by
  simp [Work.endWhere, State.inProgress, h, hf, hr, h', hm]

/-- In ACTIVE the end of an operation frees the store and nothing more. -/
theorem Work.endOp_active {w : Work} (h : w.part = .active) (r : Running) :
    w.endOp r = { w with ctl := { w.ctl with current := none } } := by simp [Work.endOp, h]

/-- So it does in COMMISSION. -/
theorem Work.endOp_commission {w : Work} (h : w.part = .commission) (r : Running) :
    w.endOp r = { w with ctl := { w.ctl with current := none } } := by simp [Work.endOp, h]

/-- The translation of a request whose map word reads clean: the request goes on with the entry (R38). -/
theorem exec_translationReadEnd {s : State} {r : HostReq} {p : Pocket} {e : MapEntry} (h : s.translating r p e) :
    exec (.translationReadEnd noFailures) s =
      .next ((Work.translated (Work.begin { s with ctl := { s.ctl with
          current := some { Running.of (.translation r) [] with entry := e } } }) r p e).endOp
        { Running.of (.translation r) [] with entry := e }).finish := by
  obtain ⟨hp, ha, hc, hr, hf, hm, hmf⟩ := h
  simp only [exec, execTranslationReadEnd]
  rw [powered_on hp]
  rw [Work.endWhere_done (w := Work.begin s) (r := Running.of (.translation r) [.readMap])
    (w' := Work.begin { s with ctl := { s.ctl with current := some { Running.of (.translation r) [] with entry := e } } })
    (r' := { Running.of (.translation r) [] with entry := e }) hc rfl ?_ rfl rfl]
  · simp only [Running.of, hr]; rfl
  · rw [Work.meet_clean]
    rw [show accessLimit = 127 + 1 from rfl,
      Work.runPlain_step 127 (w := Work.begin s) (r := Running.of (.translation r) [.readMap]) hc rfl rfl]
    rw [Work.access_plain (w := Work.begin s) (r := Running.of (.translation r) [.readMap]) hc rfl rfl]
    simp only [Work.plainAccess, Running.of, hr]
    rw [Work.readWord_clean (by exact hf), State.readable_clean (by exact hf)]
    rw [Work.runPlain_done 127 (r := { Running.of (.translation r) [] with entry := e })]
    · simp [Work.onRun, Work.begin, ← hm]
    · simp [Work.onRun, Work.begin, Running.of, ← hm]
    · rfl

end Sys2Proof.Machine
end

