-- ==== Sys2Proof/Tests/Slice0.lean ====
section
/-! SUPPORT. Tests: the checks of WellFormed, the spec's worked figures, small commands, and for each statement about the
part a state and operands that meet its hypotheses. -/

namespace Sys2Proof.Tests

/- One theorem at a time: many closed evaluations at once take too many threads. -/
set_option Elab.async false

open Sys2Proof Sys2Proof.Machine

/-! ### WellFormed refuses what does not fit -/

theorem test_wf_pocket_byte : wellFormed (.start 255) = true ∧ wellFormed (.start 256) = false := by decide
theorem test_wf_payload_halfword : wellFormed (.extend 1 65535) = true ∧ wellFormed (.extend 1 65536) = false := by decide
theorem test_wf_payload_byte : wellFormed (.setHeat 1 256) = false ∧ wellFormed (.format 0 256) = false := by decide
theorem test_wf_setting_word :
    wellFormed (.setSetting 1 4294967295) = true ∧ wellFormed (.setSetting 1 4294967296) = false ∧ wellFormed (.getSetting 256) = false := by
  decide
theorem test_wf_open : wellFormed (.openRecord 1 ⟨2, 0, 65536, 0, none⟩) = false := by decide
theorem test_wf_plan : wellFormed (.openRecord 1 ⟨2, 0, 600, 0, some ⟨256, 30, 5, 60⟩⟩) = false := by decide
theorem test_wf_findings :
    wellFormed (.patrolRead ⟨[(429, .correctable)], []⟩) = true ∧ wellFormed (.patrolRead ⟨[], [(430, .correctable)]⟩) = false := by decide
theorem test_wf_report : wellFormed (.statusArrival 1 (.report ⟨false, false, false, false, false, false, 256⟩)) = false := by decide
theorem test_no_word_spells_a_command : decodeTableWord 8 0x01 = none ∧ decodeTableWord 16 0xFFFF = none := by decide

/-! ### Figures of the spec -/

/-- R198: "a POLL to pocket 3 is the two bytes 83h and 01h. Their CRC-8 is 8Eh". -/
theorem test_crc_of_the_spec : Entry.bytes (Entry.fresh (some 3) .poll) = [0x83, 0x01, 0x8E] := by decide +kernel

/-- Section 11.2: START of pocket 4 is code 2, pocket 4, length 0 and the CRC-8 of these, 82h by a computation outside Lean. -/
theorem test_start_frame : reqFrame (.start 4) = [0x02, 0x04, 0x00, 0x82] ∧ reqCode .leaveCommission = 22 := by decide +kernel

/-- R162, section 8.8.1: F = table[6], E1 = 34, and the extremes UNKNOWN and saturated. -/
theorem test_estimate_of_the_spec :
    decayFactor (some 1000) 1200 = 38968 ∧ estimate 78 22 38968 = 56 ∧ residual 56 (some 41) = 56 ∧ decayFactor none 1200 = 65536 ∧
      decayFactor (some 86400) 60 = 0 := by decide +kernel

/-- What the planner works from in the worked cases. -/
def planned (set : Settings) (mark : OutageMark) (t : Option Nat) (saved : Bool) (at_ : Nat) (stamp : Option PlanStamp) (exhaust : Nat)
    (f : Fast) : PlanInputs :=
  { settings := set, geometry := .standard, mark := mark, tOut := t
    image := { frame := 0, bad := [], data := { Frame.blank with
      header := ⟨.live, false, saved, 0, 1, at_⟩, fast := f, stamp := stamp, level := 2, coolLength := 100 } }
    first := some ⟨false, false, false, false, false, false, exhaust⟩ }

/-- The settings of section 8.8.1: T_a 22, H 1,200, T_hazard 60, K 4, A_max 600. -/
def settings881 : Settings := (((Settings.default.withItem 18 22).withItem 19 1200).withItem 23 4).withItem 24 600

/-- The fast fields of section 8.8.1. -/
def fast881 : Fast := { Fast.zero with phase := .heat, temp := 78, heat := 1140 }

/-- Section 8.8.1: REHEAT at level 9 with an allowance of 88. -/
theorem test_case_8_8_1 :
    (planned settings881 ⟨true, 42, 88000⟩ (some 1000) true 0 none 41 fast881).outcome =
      .commit { fast881 with temp := 56, heat := 1228, extra := 88, status := .pending, cls := some .reheat, level := some 9, outage := 1 }
        120 15 := by decide +kernel

/-- Section 8.8.1 with t UNKNOWN: COOL_FIRST at level 14, no allowance. -/
theorem test_case_8_8_1_unknown :
    (planned settings881 ⟨true, 42, 88000⟩ none true 0 none 41 fast881).outcome =
      .commit { fast881 with phase := .cool, temp := 78, cool := 180, interrupted := some .heat, status := .pending
                             cls := some .coolFirst, level := some 14, outage := 1 } 120 15 := by decide +kernel

/-- The fast fields of section 8.8.2. -/
def fast882 : Fast :=
  { Fast.zero with phase := .cool, hold := .door, temp := 66, heat := 900, cool := 40, status := .running, cls := some .coolFirst
                   level := some 12, interrupted := some .heat }

/-- Section 8.8.2: cooled on at level 12, cool remaining 180, heat remaining 980. -/
theorem test_case_8_8_2 :
    (planned Settings.default ⟨true, 42, 512300⟩ (some 1263) true 0 (some ⟨41, 5⟩) 62 fast882).outcome =
      .commit { fast882 with hold := .none, temp := 62, heat := 980, extra := 80, cool := 180, status := .pending, outage := 1 } 120 15 := by decide +kernel

/-- The fast fields of section 8.8.3. -/
def fast883 : Fast := { Fast.zero with phase := .crease, temp := 25, progress := some ⟨9, 50, 1400, false⟩ }

/-- Section 8.8.3: three tumbles missed, CREASE_ON at level 5. -/
theorem test_case_8_8_3 :
    (planned Settings.default ⟨true, 42, 88000⟩ (some 300) false 87900 none 25 fast883).outcome =
      .commit { fast883 with progress := some ⟨7, 0, 1000, false⟩, status := .pending, cls := some .creaseOn, level := some 5, outage := 1 }
        120 15 := by decide +kernel

/-- The fast fields of pocket 0 in section 8.8.4, after its first commit. -/
def fast884 : Fast :=
  { Fast.zero with phase := .heat, temp := 53, heat := 1595, extra := 95, status := .pending, cls := some .reheat, level := some 9
                   outage := 1 }

/-- Section 8.8.4, pocket 0: only the 340 s since the first plan are charged. -/
theorem test_case_8_8_4 :
    (planned Settings.default ⟨true, 42, 512300⟩ (some 1603) true 512300 (some ⟨42, 1263⟩) 47 fast884).outcome =
      .commit { fast884 with temp := 51, heat := 1605, extra := 105, outage := 2 } 120 15 := by decide +kernel

/-- R26: "a record with 1,000 s remaining that is extended by 7,000 s holds 7,200 s". -/
theorem test_extend_clamps : min 7200 (1000 + min 7200 7000) = 7200 := by decide +kernel

/-! ### Small states -/

/-- A part in ACTIVE with P = 16 in STANDARD geometry, no record, every pocket ONLINE, and mains settled. -/
def bare : State :=
  { State.reset with
    part := .active
    sup := { State.reset.sup with settled := true, uptime := 88000 }
    ctl := { StoreCtl.reset with scanning := false, scanDone := true, format := ⟨true, .standard, 16⟩, free := [7, 8] }
    store := { Store.unformatted with format := ⟨true, .standard, 16⟩ }
    link := { LinkCtl.reset with pockets := Vector.replicate 32 { PocketLink.reset with state := .online } }
    arb := { Arbiter.reset with mask := 0xFFFF } }

/-- The context of the one record of `live`: in frame 5, nothing dirty. -/
def ctxOf (f : Fast) : Context :=
  { gen := 118, frame := 5, fast := f, dirty := 0, since := 0, shadow := ⟨87000, none, false⟩, timer := 30, checkpoint := .idle, pinned := false
    tumbleLeft := none, awaitCool := false, tumbleGranted := false, interval := 120, length := 15, heatLevel := some 2
    stampPending := false, commitMove := false }

/-- The same part with one record, of pocket 2. -/
def live (c : Context) : State :=
  { bare with
    ctxs := upd noContexts 2 (some c)
    ctl := { bare.ctl with mirror := upd StoreCtl.reset.mirror 2 ⟨true, 5, 118⟩ }
    store := { bare.store with
      map := upd StoreCtl.reset.mirror 2 ⟨true, 5, 118⟩
      frames := Store.unformatted.frames.set 5
        { Frame.blank with header := ⟨.live, false, false, 2, 118, 87000⟩, level := 2, coolLength := 240, fast := c.fast } } }

/-- A state with the operation in progress. -/
def busyWith (s : State) (op : StoreOp) (todo : List Access) : State := { s with ctl := { s.ctl with current := some (Running.of op todo) } }

/-- A state with word `n` flawed. -/
def flawed (s : State) (n : Nat) (x : Flaw) : State := { s with store := s.store.setFlaw n (some x) }

/-- A state whose pocket 2 has link record `l`. -/
def linked (s : State) (l : PocketLink) : State := { s with link := { s.link with pockets := upd s.link.pockets 2 l } }

/-- A state with the link queue. -/
def linkQueue (s : State) (q : List Entry) : State := { s with link := { s.link with queue := q } }

/-- An online pocket. -/
def onlinePocket : PocketLink := { PocketLink.reset with state := .online }

/-- A state with an exchange under way for a command to pocket 2. -/
def asking (s : State) (e : Entry) : State := { s with link := { s.link with queue := [{ e with pocket := some 2, state := .inFlight }] } }

/-- A state in another part state. -/
def inPart (s : State) (x : PartState) : State := { s with part := x }

/-- A state with the waiting operations. -/
def queued (s : State) (ops : List StoreOp) : State := { s with ctl := { s.ctl with queue := ops } }

/-- The state a command leads to, or the state it was in. -/
def after (c : Instr) (s : State) : State :=
  match exec c s with
  | .next t => t
  | _ => s

/-- A heating record. -/
def heating : Context := ctxOf { Fast.zero with phase := .heat, heat := 600, temp := 70 }
/-- A cooling record. -/
def cooling : Context := ctxOf { Fast.zero with phase := .cool, cool := 100, temp := 60 }
/-- A record in CREASE. -/
def creasing (cp : CreaseProgress) : Context := ctxOf { Fast.zero with phase := .crease, progress := some cp }
/-- A record in another phase. -/
def at_ (ph : Phase) : Context := ctxOf { Fast.zero with phase := ph, heat := 600 }

/-! ### Small commands, with results read from the rules -/

/-- Section 9.7: a request on a BUSY port is dropped and shows in the status byte of the next frame (ACTIVE is 3). -/
theorem test_dropped_request :
    (after .status (after (.setHeat 4 3) bare)).port.dropped = true ∧
      (after (.fetch 3) (after .status (after (.setHeat 4 3) bare))).port.shiftedStatus = 0x33 ∧
      (after (.fetch 3) (after .status (after (.setHeat 4 3) bare))).port.dropped = false := by decide +kernel

/-- R189: a slot is neither taken nor needed for CLEAR_POCKET; an ONLINE pocket refuses it. -/
theorem test_clear_pocket_online : (after (.clearPocket 2) bare).port.response = some ⟨.state, []⟩ := by decide +kernel

/-- R7, R25: a staged load with heat time goes to HEAT and is granted a start at once; its RUN is posted. -/
theorem test_start_staged :
    let t := after (.translationReadEnd noFailures) (busyWith (live (at_ .staged)) (.translation (.start 2)) [.readMap])
    (t.ctx 2).map (·.fast.phase) = some .heat ∧ t.arb.holders = [2] ∧ t.link.queue.map (·.kind) = [.run] ∧
      t.port.response = some ⟨.ok, []⟩ := by decide +kernel

/-- R103: a door that refuses a RUN holds the record DOOR. -/
theorem test_door_refuses_run :
    let t := after (.notReadyDoorOpen 2) (asking (live heating) (Entry.fresh (some 2) .run))
    (t.ctx 2).map (·.fast.hold) = some .door ∧ t.events.hold.has 2 = true := by decide +kernel

/-- R127: an acknowledged RUN of a heating load reserves its draw and posts HEAT_ON. -/
theorem test_run_ack_reserves :
    let t := after (.runAck 2) (asking (live heating) (Entry.fresh (some 2) .run))
    t.hasReservation 2 = true ∧ t.link.queue.map (·.kind) = [.heatOn] := by decide +kernel

/-- A full queue behind the exchange of entry `e` with pocket 2, with no entry for pocket 7. -/
def fullQueue (s : State) (e : Entry) : State :=
  linkQueue s ({ e with pocket := some 2, state := .inFlight } :: Entry.fresh (some 12) .poll ::
    [CommandKind.poll, .clearDoor, .stop].flatMap fun k => [0, 1, 3, 4, 5, 6, 8, 9, 10, 11].map fun p => Entry.fresh (some p) k)

/-- R101: at a full queue, the HEAT_ON whose retries are exhausted is not posted again, and its place goes to the STOP of the
hold; R93: a STOP of pocket 7 that waited for room goes first. -/
theorem test_exhausted_heat_at_full_queue :
    let on : PocketLink := { onlinePocket with motorBelieved := true }
    let s := { linked (live heating) on with heat := { HeatUnit.reset with reserved := upd HeatUnit.reset.reserved 2 (some 10) } }
    let e : Entry := { Entry.fresh none .heatOn with level := some 2, attempts := 19 }
    let last (t : State) := (t.link.queue.length, t.link.queue.getLast?.map fun e => (e.pocket, e.kind))
    last (after (.notReadyRetry 2 .busy) (fullQueue s e)) = (32, some (some 2, .stop)) ∧
      last (after (.notReadyRetry 2 .busy) (fullQueue { s with link := { s.link with pockets := upd s.link.pockets 7 on } } e)) =
        (32, some (some 7, .stop)) := by decide +kernel

/-- R152: the outage timer that resumes begins a whole second. -/
theorem test_settled_begins_a_second :
    (after .settleTimeReached { inPart bare .commission with
      sup := { bare.sup with settled := false }, backup := { bare.backup with secondMs := 700 } }).backup.secondMs = 0 := by
  decide +kernel

/-- R193: the write of the format word with its marker and what it brings about are one command. -/
theorem test_format_ends_with_its_last_write :
    (tick (busyWith (inPart bare .commission) (.format .compact 9) [.formatLast])).pending = [.formatEnd noFailures] ∧
      (let t := after (.formatEnd noFailures) (busyWith (inPart bare .commission) (.format .compact 9) [.formatLast])
       t.store.format = ⟨true, .compact, 9⟩ ∧ t.ctl.formatBad = false ∧ t.port.response = some ⟨.ok, []⟩) := by decide +kernel

/-- R40: a move of the record that waits already becomes the move that writes its commit. -/
theorem test_commit_move_is_the_one_queued :
    (Work.enqueueCommitMove (Work.begin (queued bare [.move 2 5 false, .retire 3 6 false false])) 2 5).ctl.queue =
      [.move 2 5 true, .retire 3 6 false false] := by decide +kernel

/-- R72: a clock step takes one second off the crease window and off the time to the next tumble. -/
theorem test_clock_crease :
    ((after .clockStep (live (creasing ⟨9, 50, 1400, false⟩))).ctx 2).map (·.fast.progress) = some (some ⟨9, 49, 1399, false⟩) := by
  decide +kernel

/-- R133: the pulse that reaches the threshold starts the throttle. -/
theorem test_sag_threshold :
    (after .sagPulse { bare with sag := { SagThrottle.reset with count := bare.setting 12 - 1, windowRuns := true } }).sag.active = true := by decide +kernel

/-- R51: a part that was never formatted goes from START to COMMISSION with a broadcast SAFE. -/
theorem test_first_scan :
    let t := after (.startScanEnd noFailures) State.reset
    t.part = .commission ∧ t.ctl.formatBad = true ∧ t.link.sent.take 2 = [0xBF, 0x06] := by decide +kernel

/-- R141: a warning in ACTIVE opens the save of a dirty context behind the mark write. -/
theorem test_warning :
    let t := after .powerFailWarning (live { heating with dirty := 8 })
    t.part = .save ∧ t.sup.mark = ⟨true, 1, 88000⟩ ∧ t.ctl.queue = [.markWrite false] := by decide +kernel

/-! ### Witnesses: a state and operands for the hypotheses of each statement

Each theorem is named after the statement, and each of its conjuncts stands for the hypotheses of one clause, at a boundary of
its range where there is one. -/

/-- A state whose port stands so. -/
def ported (s : State) (st : PortState) (r : Option Response) : State := { s with port := { s.port with state := st, response := r } }

/-- A good response, 3 bytes long when it is shifted out. -/
def okResponse : Response := ⟨.ok, []⟩

/-- A request of pocket 2 at level 7, with the start enable mask as given. -/
def requesting (mask : Mask) : State :=
  let s := live heating
  { s with arb := { s.arb with
      requests := upd Arbiter.reset.requests 2 (some 7), sinceGrant := some (s.setting 8 * 100), mask := mask } }

theorem requesting_wins (mask : Mask) (h : mask.has 2 = true) : (requesting mask).wins 2 7 := by
  refine ⟨?_, rfl, fun q n _ h2 => ?_⟩
  · show (true && mask.has 2 && true) = true
    rw [h]; rfl
  · have only : ∀ q : Pocket, (requesting mask).request q = if q = 2 then some 7 else none := by
      show ∀ q : Pocket, (upd Arbiter.reset.requests 2 (some 7))[q] = if q = 2 then some 7 else none
      decide +kernel
    rw [only] at h2
    split at h2
    · cases h2; exact .inr ⟨rfl, by simp_all⟩
    · cases h2

theorem witness_StepTakesTheFrontCommand :
    ({ bare with pending := [.status, .clockStep] } : State).pending = .status :: [.clockStep] := rfl

theorem witness_RequestFramesReadBack :
    reqFits (.openRecord 255 ⟨255, 0xFF, 65535, 65535, some ⟨255, 65535, 255, 65535⟩⟩) = true ∧
      reqFits (.setSetting 255 4294967295) = true := by decide

theorem witness_CheckAndRepliesReadBack :
    (CommandKind.run ≠ .poll ∧ (3 : Pocket) ≠ 2) ∧
    (∀ k : CommandKind, (asking bare { Entry.fresh (some 2) k with state := .inFlight }).exchanging 2
      { Entry.fresh (some 2) k with pocket := some 2, state := .inFlight }) ∧
    crc8 [0x02, 0x82, 0] ≠ 0 ∧ ([0x02, 0x82] : List Byte).length < 3 ∧ ([0x03, 0x82, 0] : List Byte).head? ≠ some (BitVec.ofNat 8 (2 : Pocket).val) :=
  ⟨by decide, fun _ => ⟨rfl, rfl, rfl, rfl⟩, by decide +kernel, by decide, by decide⟩

theorem witness_RawRequestFrameIsTheRequest :
    hostRequest (.extend 255 65535) = some (.extend 255 65535) ∧ reqFits (.extend 255 65535) = true := by decide

theorem witness_PortDropsAndShifts :
    ((ported bare .busy none).powered = true ∧ (ported bare .busy none).port.state = .busy ∧ (hostRequest .status).isSome = true) ∧
    ((ported bare .ready (some okResponse)).port.state = .ready ∧ okResponse.bytes.length ≤ 3 ∧ 2 < okResponse.bytes.length) ∧
    bare.port.state ≠ .ready := by decide +kernel

theorem witness_RequestsNotTakenAreAnswered :
    (hostRequest .events = some .events ∧ HostReq.events ≠ .status) ∧ bare.hostReady ∧
    (inPart bare .plan).hostReady ∧ (inPart bare .dark).hostReady ∧ (inPart bare .commission).hostReady ∧
    ([0x02, 0x04] : List Byte).length < 3 ∧ (24 < (25 : Byte).toNat) ∧ ([0] : List Byte).length ≤ (1 : Byte).toNat ∧
    ((0 : Byte).toNat < ([0x83] : List Byte).length ∧ crc8 (0x02 :: 0x04 :: 0x00 :: [0x83]) ≠ 0) ∧
    ((0 : Byte).toNat = ([] : List Byte).length ∧ 22 < (23 : Byte).toNat ∧ (0 : Byte).toNat = 0) ∧
    ((1 : Byte).toNat = ([7] : List Byte).length ∧ ([7] : List Byte).length ≤ 24 ∧
      ∀ code : Nat, code ≤ 22 → code = 5 ∨ code = 21 ∨ ([7] : List Byte).length ∉ payloadLengths code) ∧
    ((24 : Byte).toNat = (List.replicate 24 (0 : Byte)).length ∧ 24 ∉ payloadLengths 5 ∧ 24 ∉ payloadLengths 21) := by
  unfold State.hostReady; decide +kernel

theorem witness_ReportsAnswerAndEventsEmpty :
    bare.hostReady ∧ bare.part = .active ∧ (inPart bare .commission).hostReady ∧ ((1 ≤ 95 ∧ 95 ≤ 95) ∧ 95 < 96) := by
  unfold State.hostReady; decide +kernel

theorem witness_HoldAndReleaseSetTheMask :
    (bare.hostReady ∧ bare.part = .active ∧ (15 : Pocket).val < bare.count) ∧
    ((0x8000 : Mask) &&& 0x7FFF = 0 ∧ ∀ q : Pocket, Mask.has (0x8000 ||| 0x7FFF) q = true → q.val < bare.count) ∧
    ((0 : Mask) &&& 0x7FFF = 0 ∧ ∀ q : Pocket, Mask.has (0 ||| 0x7FFF) q = true → q.val < bare.count) ∧
    (1 : Mask) &&& 1 ≠ 0 ∧ bare.count ≤ 16 ∧ Mask.has (0x10000 ||| 0) 16 = true ∧
    (let s := requesting 0
     s.hostReady ∧ s.part = .active ∧ s.slotOf 2 = none ∧ (requesting (Mask.put 0 2 true)).mayGrant = true ∧
       (requesting (Mask.put 0 2 true)).wins 2 7 ∧ (requesting ((0 ||| 4) &&& ~~~ 0)).mayGrant = true ∧
       (requesting ((0 ||| 4) &&& ~~~ 0)).wins 2 7) := by
  refine ⟨?_, by decide +kernel, by decide +kernel, by decide, by decide +kernel, by decide, ?_, rfl, by decide +kernel, by decide +kernel,
    requesting_wins _ (by decide), by decide +kernel, requesting_wins _ (by decide)⟩ <;> (unfold State.hostReady; decide +kernel)

theorem witness_ClearPocketReturnsToUnknown :
    (bare.hostReady ∧ bare.part = .active ∧ (2 : Pocket).val < bare.count) ∧
    ((linked bare { PocketLink.reset with state := .fault }).pocketLink 2).state = .fault ∧
    ((linked bare { PocketLink.reset with state := .offline }).pocketLink 2).state = .offline ∧ (bare.pocketLink 2).state = .online ∧
    bare.count ≤ 16 ∧ 32 ≤ 32 := by
  unfold State.hostReady; decide +kernel

theorem witness_CommissionAndRemapWritesAreQueued :
    (bare.hostReady ∧ bare.part = .active ∧ (15 : Pocket).val < bare.count ∧ bare.count ≤ 16) ∧
    ((inPart bare .commission).hostReady ∧ (inPart bare .commission).part = .commission) ∧
    (1 ≤ 16 ∧ 16 < 17 ∧ 17 ≤ 32 ∧ 32 < 33 ∧ 1 < 2) ∧
    (itemLow 95 ≤ itemLow 95 ∧ itemLow 95 ≤ itemHigh 95 ∧ itemHigh 95 < itemHigh 95 + 1 ∧ 0 < itemLow 3) := by
  unfold State.hostReady; decide +kernel

theorem witness_EnterCommissionClearsTheArbiters :
    (bare.hostReady ∧ bare.part = .active ∧ bare.contextCount = 0 ∧ bare.ctl.current = none ∧ bare.ctl.queue = [] ∧ bare.inFlight = none) ∧
    (asking bare (Entry.fresh (some 2) .poll)).inFlight ≠ none ∧ (live heating).contextCount ≠ 0 := by
  unfold State.hostReady; decide +kernel

theorem witness_LeaveCommissionResetsTheBlocks :
    ((inPart bare .commission).hostReady ∧ (inPart bare .commission).part = .commission ∧ bare.ctl.formatBad = false ∧
      bare.ctl.wordBad.contains true = false ∧ bare.ctl.itemBad.contains true = false) ∧
    ({ inPart bare .commission with ctl := { bare.ctl with itemBad := bare.ctl.itemBad.setIfInBounds 95 true } } : State).ctl.itemBad.contains
      true = true := by
  unfold State.hostReady; decide +kernel

theorem witness_RecordRequestsAwaitTranslation :
    recordRequest (.start 16) = some (.start 16, 16) ∧ recordRequest (.retire 15) = some (.retire 15, 15) ∧ bare.hostReady ∧
    bare.part = .active ∧ bare.count ≤ 16 ∧ 15 < bare.count ∧ bare.ctl.mapFault.has 15 = false ∧
    ({ bare with ctl := { bare.ctl with mapFault := 0x8000 } } : State).ctl.mapFault.has 15 = true ∧ bare.ctx 15 = none := by
  unfold State.hostReady; decide +kernel

/-- A request that reaches the record of `live`. -/
def reaching (c : Context) (req : HostReq) : State := busyWith (live c) (.translation req) [.readMap]

theorem reaching_reaches (c : Context) (req : HostReq) (h : reqPocket req = some 2) : (reaching c req).reaches req 2 c :=
  ⟨⟨⟨true, 5, 118⟩, ⟨rfl, rfl, rfl, h, rfl, rfl, (by decide : Mask.has 0 2 = false)⟩, rfl⟩, rfl⟩

theorem waits_of_reset (s : State) (p : Pocket) (h : s.heat = HeatUnit.reset) : s.waitsOnItsPhase p := by
  intro x _
  cases x <;> simp [State.waitList, h, HeatUnit.reset]

theorem witness_StartSetsTheLoadGoing :
    ((reaching (at_ .staged) (.start 2)).reaches (.start 2) 2 (at_ .staged) ∧ (at_ .staged).fast.heat ≠ 0) ∧
    (let c := ctxOf Fast.zero; (reaching c (.start 2)).reaches (.start 2) 2 c ∧ c.fast.heat = 0 ∧ c.fast.status = .none) ∧
    (let c := ctxOf { heating.fast with hold := .link }
     (reaching c (.start 2)).reaches (.start 2) 2 c ∧ ((reaching c (.start 2)).pocketLink 2).state = .online) ∧
    (let c := ctxOf { heating.fast with hold := .resumeAsk }; (reaching c (.start 2)).reaches (.start 2) 2 c) ∧
    ((reaching heating (.start 2)).reaches (.start 2) 2 heating ∧ heating.fast.hold = .none) :=
  ⟨⟨reaching_reaches _ _ rfl, by decide⟩, ⟨reaching_reaches _ _ rfl, rfl, rfl⟩, ⟨reaching_reaches _ _ rfl, rfl⟩, reaching_reaches _ _ rfl,
    reaching_reaches _ _ rfl, rfl⟩

theorem witness_ExtendAddsPaidSeconds :
    (reaching heating (.extend 2 6600)).reaches (.extend 2 6600) 2 heating ∧ heating.fast.phase = .heat ∧ heating.fast.heat + 6600 ≤ 7200 ∧
    (reaching heating (.extend 2 6601)).reaches (.extend 2 6601) 2 heating ∧ 7200 < heating.fast.heat + 6601 ∧
    (reaching (at_ .staged) (.extend 2 0)).reaches (.extend 2 0) 2 (at_ .staged) ∧
    (reaching cooling (.extend 2 1)).reaches (.extend 2 1) 2 cooling ∧ cooling.fast.phase = .cool :=
  ⟨reaching_reaches _ _ rfl, rfl, by decide, reaching_reaches _ _ rfl, by decide, reaching_reaches _ _ rfl, reaching_reaches _ _ rfl, rfl⟩

theorem witness_EndHeatGoesToCool :
    ((reaching heating (.endHeat 2)).reaches (.endHeat 2) 2 heating ∧ heating.fast.status ≠ .pending ∧
      (reaching heating (.endHeat 2)).waitsOnItsPhase 2) ∧
    (let c := ctxOf { heating.fast with hold := .heatFault }; (reaching c (.endHeat 2)).reaches (.endHeat 2) 2 c) ∧
    ((reaching cooling (.endHeat 2)).reaches (.endHeat 2) 2 cooling ∧ cooling.fast.phase ≠ .heat) :=
  ⟨⟨reaching_reaches _ _ rfl, by decide, waits_of_reset _ _ rfl⟩, reaching_reaches _ _ rfl, reaching_reaches _ _ rfl, by decide⟩

theorem witness_RequestsThatNeedTheFrameAreQueued :
    (reaching heating (.setHeat 2 4)).reaches (.setHeat 2 4) 2 heating ∧ heating.fast.status ≠ .pending ∧
    (reaching heating (.setOptions 2 1 1)).reaches (.setOptions 2 1 1) 2 heating ∧
    (reaching heating (.lookup 2)).reaches (.lookup 2) 2 heating ∧
    (let x : OpenArgs := ⟨4, 0, 7201, 0, none⟩
     (busyWith bare (.translation (.openRecord 15 x)) [.readMap]).translating (.openRecord (15 : Pocket).val x) 15 ⟨false, 0, 0⟩) :=
  ⟨reaching_reaches _ _ rfl, by decide, reaching_reaches _ _ rfl, reaching_reaches _ _ rfl, rfl, rfl, rfl, rfl, rfl, rfl, rfl⟩

theorem witness_RetireDropsTheRecord :
    ((reaching heating (.retire 2)).reaches (.retire 2) 2 heating ∧ (reaching heating (.retire 2)).waitsOnItsPhase 2) ∧
    (let b := live heating
     let s : State := { b with ctl := { b.ctl with mapFault := 4 } }
     s.hostReady ∧ s.part = .active ∧ (2 : Pocket).val < s.count ∧ s.ctl.mapFault.has 2 = true ∧ s.ctx 2 = some heating ∧
       s.waitsOnItsPhase 2 ∧ ∀ r, s.ctl.current = some r → r.op.worksFor 2 = false) := by
  refine ⟨⟨reaching_reaches _ _ rfl, waits_of_reset _ _ rfl⟩, ?_, rfl, by decide +kernel, by decide, rfl, waits_of_reset _ _ rfl,
    fun r h => nomatch h⟩
  unfold State.hostReady; decide +kernel

/-- A PENDING record. -/
def pendingRecord : Context := ctxOf { heating.fast with status := .pending, cls := some .reheat, level := some 9 }

theorem witness_TranslationRefusesAndRepairs :
    (busyWith bare (.translation (.start 2)) [.readMap]).translating (.start 2) 2 ⟨false, 0, 0⟩ ∧
    (let x : OpenArgs := ⟨2, 0, 600, 0, none⟩
     (reaching heating (.openRecord 2 x)).translating (.openRecord 2 x) 2 ⟨true, 5, 118⟩) ∧
    ((reaching pendingRecord (.start 2)).reaches (.start 2) 2 pendingRecord ∧ pendingRecord.fast.status = .pending) ∧
    (let s := flawed { reaching heating (.start 2) with ctl := { (reaching heating (.start 2)).ctl with
       latch := ⟨.uncorrectable, .map, 0, 1, .read⟩ } } 16 .uncorrectable
     s.serving (.translation (.start 2)) [.readMap] ∧ s.store.flaw (mapWord 2) = some .uncorrectable ∧ s.ctl.latch.state = .uncorrectable) ∧
    (let s := flawed (reaching heating (.extend 2 1)) 16 .correctable
     s.serving (.translation (.extend (2 : Pocket).val 1)) [.readMap] ∧ s.storeWf ∧ s.store.flaw (mapWord 2) = some .correctable) :=
  ⟨⟨rfl, rfl, rfl, rfl, rfl, rfl, rfl⟩, ⟨rfl, rfl, rfl, rfl, rfl, rfl, rfl⟩, ⟨reaching_reaches _ _ rfl, rfl⟩, ⟨rfl, by decide +kernel, rfl⟩,
    rfl, by unfold State.storeWf; decide +kernel, by decide +kernel⟩

theorem witness_OldestOperationIsServed :
    (bare.ctl.queue = [] ∧ (busyWith bare (.remap 2) [.writeMap]).ctl.current ≠ none) ∧
    ((queued bare [.remap 2]).ctl.queue = .remap 2 :: [] ∧ (queued bare [.remap 2]).ctl.current = none ∧
      accessesOf (.remap 2) = some [.writeMap]) ∧
    (bare.ctl.free = 7 :: [8] ∧ ({ bare with ctl := { bare.ctl with free := [] } } : State).ctl.free = []) ∧
    bare.ctx 2 = none ∧ (live heating).ctx 2 = some heating ∧ heating.pinned = false ∧
    (({ heating with dirty := 8 } : Context).dirty ≠ 0 ∧ (live heating).ctl.free = 7 :: [8] ∧ heating.frame = 5) ∧
    (({ heating with pinned := true } : Context).pinned = true ∧ heating.dirty = 0 ∧ heating.stampPending = false) ∧
    (let b := queued (live heating) [.move 2 5 false]
     let s : State := { b with ctl := { b.ctl with free := [] } }
     s.ctl.free = [] ∧ s.ctx 2 = some heating ∧ s.store.flaw (frameWord s.geometry 5 1) = none) := by
  decide +kernel

theorem live_frameClean (c : Context) (op : StoreOp) (todo : List Access) (f : Nat) : (busyWith (live c) op todo).frameClean f :=
  fun _ _ => rfl

theorem witness_StaticReadsGiveTheirFields :
    (let s := busyWith (live cooling) (.lookupRead 2 ⟨118, cooling.fast, cooling.shadow, false⟩) ((staticWords .standard).map Access.readStatic)
     s.ctx 2 = some cooling ∧ s.frameClean cooling.frame ∧
       s.serving (.lookupRead 2 ⟨118, cooling.fast, cooling.shadow, false⟩) ((staticWords s.geometry).map Access.readStatic)) ∧
    (let c : Context := { cooling with awaitCool := true }
     let s := busyWith (live c) (.staticRead 2 [.heatExit]) ((staticWords .standard).map Access.readStatic)
     s.ctx 2 = some c ∧ s.frameClean c.frame ∧ s.serving (.staticRead 2 [.heatExit]) ((staticWords s.geometry).map Access.readStatic) ∧
       (s.store.frame c.frame).coolLength ≠ 0 ∧ c.fast.phase = .cool ∧ c.awaitCool = true) ∧
    (let c : Context := { cooling with awaitCool := true }
     let b := busyWith (live c) (.staticRead 2 [.heatExit]) ((staticWords .standard).map Access.readStatic)
     let s : State := { b with store := { b.store with frames := b.store.frames.set 5 { Frame.blank with level := 2 } } }
     s.ctx 2 = some c ∧ s.frameClean c.frame ∧ s.serving (.staticRead 2 [.heatExit]) ((staticWords s.geometry).map Access.readStatic) ∧
       (s.store.frame c.frame).coolLength = 0) ∧
    (let c := ctxOf { Fast.zero with phase := .crease }
     let s := busyWith (live c) (.staticRead 2 [.coolExit]) ((staticWords .standard).map Access.readStatic)
     s.ctx 2 = some c ∧ s.frameClean c.frame ∧ s.serving (.staticRead 2 [.coolExit]) ((staticWords s.geometry).map Access.readStatic) ∧
       c.fast.phase = .crease ∧ c.fast.progress = none) ∧
    (let e : Entry := { Entry.fresh (some 2) .heatOn with level := none }
     let b := busyWith (live heating) (.staticRead 2 [.heatLevel]) [.readStatic 1]
     let s : State := { linked b { onlinePocket with motorBelieved := true } with
       heat := { HeatUnit.reset with reserved := upd HeatUnit.reset.reserved 2 (some 5) } }
     let t : State := { s with link := { s.link with queue := [e] } }
     t.serving (.staticRead 2 [.heatLevel]) [.readStatic 1] ∧ (t.pocketLink 2).state = .online ∧ t.heatDesired 2 = true ∧
       t.hasReservation 2 = true ∧ (t.pocketLink 2).heatLost = false ∧
       ∃ e ∈ t.link.queue, e.isFor 2 = true ∧ e.kind = .heatOn ∧ e.level = none) :=
  ⟨⟨rfl, live_frameClean _ _ _ _, rfl⟩, ⟨rfl, live_frameClean _ _ _ _, rfl, by decide +kernel, rfl, rfl⟩,
    ⟨rfl, fun _ _ => rfl, rfl, by decide +kernel⟩, ⟨rfl, live_frameClean _ _ _ _, rfl, rfl, rfl⟩, rfl, rfl, by decide +kernel,
    by decide +kernel, by decide +kernel, _, List.mem_singleton.mpr rfl, by decide +kernel, rfl, rfl⟩

theorem witness_StaticWritesChangeOneField :
    (let s := busyWith (live heating) (.staticWrite 2 (.level 3) true) [.staticMerge]
     s.ctx 2 = some heating ∧ s.store.flaw (frameWord s.geometry heating.frame 1) = none ∧ s.serving (.staticWrite 2 (.level 3) true) [.staticMerge]) ∧
    (let c := creasing ⟨9, 50, 1400, false⟩
     let op : StoreOp := .staticWrite 2 (.options ⟨false, true, false⟩ Options.none) false
     let s := busyWith (live c) op [.staticMerge]
     s.ctx 2 = some c ∧ s.serving op [.staticMerge] ∧ c.fast.phase = .crease) := by
  refine ⟨⟨rfl, rfl, rfl⟩, rfl, rfl, rfl⟩

/-- A heating record with its heat remaining and its phase dirty. -/
def dirtyHeating : Context := { heating with dirty := 0x0009 }

theorem witness_CheckpointsFallDueAndWrite :
    (let c : Context := { heating with timer := 0 }; (live c).ctx 2 = some c ∧ c.timer = 0 ∧ c.dirty = 0) ∧
    (let c : Context := { dirtyHeating with timer := 0 }
     (live c).ctx 2 = some c ∧ c.dirty ≠ 0 ∧ c.checkpoint = .idle ∧ (live c).checkpointQueued 2 = false) ∧
    (let c : Context := { dirtyHeating with timer := 0, checkpoint := .writing }; (live c).ctx 2 = some c ∧ c.checkpoint ≠ .idle) ∧
    (let s := busyWith (live dirtyHeating) (.checkpoint 2) (checkpointTodo .standard dirtyHeating)
     s.ctx 2 = some dirtyHeating ∧ dirtyHeating.frame < 48 ∧ s.frameClean dirtyHeating.frame ∧ dirtyHeating.pinned = false ∧
       dirtyHeating.stampPending = false ∧ dirtyHeating.dirty &&& ~~~ (allFields s.geometry) = 0 ∧
       s.serving (.checkpoint 2) (checkpointTodo s.geometry dirtyHeating)) :=
  ⟨⟨rfl, rfl, rfl⟩, ⟨rfl, by decide, rfl, rfl⟩, ⟨rfl, by decide⟩, rfl, by decide, live_frameClean _ _ _ _, rfl, rfl, by decide, rfl⟩

theorem witness_SaveWriteKeepsTheRecord :
    let s := inPart (busyWith (live dirtyHeating) (.saveWrite 2) (checkpointTodo .standard dirtyHeating)) .save
    let t : State := { s with sup := { s.sup with settled := false } }
    let u : State := { t with sup := { t.sup with save := ⟨t.setting 6, 1, false, 9⟩ } }
    t.part = .save ∧ t.ctx 2 = some dirtyHeating ∧ t.frameClean dirtyHeating.frame ∧
      dirtyHeating.dirty &&& ~~~ (allFields t.geometry) = 0 ∧ t.serving (.saveWrite 2) (checkpointTodo t.geometry dirtyHeating) ∧
      t.sup.save.opAtWarning = false ∧ t.ctl.queue = [] ∧ t.sup.settled = false ∧ t.sup.save.charged < t.setting 6 ∧
      (∀ q : Pocket, ∀ d ∈ t.ctx q, q = 2 ∨ d.eligible = false) ∧ u.setting 6 ≤ u.sup.save.charged :=
  ⟨rfl, rfl, fun _ _ => rfl, by decide, rfl, rfl, rfl, rfl, by decide +kernel, by decide +kernel, by decide +kernel⟩

theorem witness_MoveCopiesTheRecord :
    let r : Running := { Running.of (.move 2 5 false) (moveTodo .standard []) with
      move := some { old := 5, new := 7, statics := (live heating).safeStatics, stamp := none, saved := false } }
    let s : State := { live heating with ctl := { (live heating).ctl with current := some r, free := [8] } }
    s.ctx 2 = some heating ∧ heating.frame < 48 ∧ 7 < 48 ∧ heating.frame ≠ 7 ∧ s.frameClean heating.frame ∧ s.frameClean 7 ∧
      s.store.flaw (mapWord 2) = none ∧ s.ctl.mapFault.has 2 = false ∧ heating.dirty &&& ~~~ (allFields s.geometry) = 0 ∧
      s.movingTo 2 heating.frame 7 :=
  ⟨rfl, by decide, by decide, by decide, fun _ _ => rfl, fun _ _ => rfl, rfl, by decide, by decide, rfl⟩

theorem nonePinned_of (s : State) (h : ∀ p : Pocket, (s.ctx p).all (fun c => !c.pinned) = true) : s.nonePinned := by
  intro p c hc
  simpa [hc] using h p

theorem witness_OpenCreatesTheRecord :
    let args : Statics := ⟨2, Options.none, 240, none⟩
    let r : Running := { Running.of (.openRecord 15 1 args 600 false) (openTodo .standard) with target := 7 }
    let s : State := { bare with ctl := { bare.ctl with current := some r, free := [8] } }
    7 < 48 ∧ s.frameClean 7 ∧ s.store.flaw (mapWord 15) = none ∧ s.ctl.mapFault.has 15 = false ∧ s.nonePinned ∧
      s.ctl.current = some { Running.of (.openRecord 15 1 args 600 false) (openTodo s.geometry) with target := 7 } :=
  ⟨by decide, fun _ _ => rfl, rfl, rfl, nonePinned_of _ (by decide +kernel), rfl⟩

theorem witness_RetirementFreesTheFrame :
    (let s := busyWith bare (.retire 2 5 true true) [.retireMap, .retireHeader]
     s.serving (.retire 2 5 true true) [.retireMap, .retireHeader] ∧ s.store.flaw (mapWord 2) = none ∧ s.nonePinned) ∧
    (let s := busyWith bare (.retire 2 23 false true) [.retireHeader]
     s.serving (.retire 2 23 false true) [.retireHeader] ∧ s.store.flaw (frameWord s.geometry 23 0) = none) ∧
    (let c : Context := { heating with pinned := true }
     let s := busyWith (live c) (.retire 15 9 false false) [.retireMap, .retireHeader]
     s.serving (.retire 15 9 false false) [.retireMap, .retireHeader] ∧ s.store.flaw (mapWord 15) = none ∧ s.ctx 2 = some c ∧
       c.pinned = true ∧ s.ctl.queue.any (·.isMoveOf 2) = false ∧ ∀ r : Pocket, r < 2 → s.ctx r = none) :=
  ⟨⟨rfl, rfl, nonePinned_of _ (by decide +kernel)⟩, ⟨rfl, rfl⟩, rfl, rfl, rfl, rfl, rfl, by decide +kernel⟩

theorem witness_MapWordsAreRewritten :
    (let b := busyWith bare (.remap 15) [.writeMap]
     let s : State := flawed { b with ctl := { b.ctl with mapFault := 0x8000 } } (mapWord 15) .uncorrectable
     s.storeWf ∧ s.serving (.remap 15) [.writeMap] ∧ s.ctl.mapFault.has 15 = true) ∧
    (let s := flawed (busyWith bare (.mapRepair (.start 2) 2) [.writeMap]) (mapWord 2) .uncorrectable
     s.storeWf ∧ s.serving (.mapRepair (.start 2) 2) [.writeMap] ∧ s.ctl.mapFault.has 2 = false ∧ (s.ctl.mirror[(2 : Pocket)]).valid = false) ∧
    (let s := busyWith bare (.mapRepair (.openRecord 2 ⟨2, 0, 600, 0, none⟩) 2) [.writeMap]
     s.serving (.mapRepair (.openRecord 2 ⟨2, 0, 600, 0, none⟩) 2) [.writeMap] ∧ (s.ctl.mirror[(2 : Pocket)]).valid = false) ∧
    (let s := busyWith (live heating) (.mapRepair (.lookup 2) 2) [.writeMap]
     s.serving (.mapRepair (.lookup 2) 2) [.writeMap] ∧ (s.ctl.mirror[(2 : Pocket)]).valid = true ∧ s.ctx 2 = some heating) :=
  ⟨⟨rfl, rfl, by decide⟩, ⟨rfl, rfl, rfl, by decide +kernel⟩, ⟨rfl, by decide +kernel⟩, rfl, by decide +kernel, rfl⟩

theorem witness_CommissionWritesReachTheStore :
    (let s := inPart (busyWith bare (.settingsWrite 95) [.writeSettings]) .commission
     s.part = .commission ∧ s.serving (.settingsWrite 95) [.writeSettings] ∧ 1 ≤ 95 ∧ 95 ≤ 95) ∧
    (let s := inPart (busyWith bare (.format .compact 32) (formatTodo .compact)) .commission
     s.serving (.format .compact 32) (formatTodo .compact) ∧ s.storeWf) :=
  ⟨⟨rfl, rfl, by decide, by decide⟩, rfl, by unfold State.storeWf; decide +kernel⟩

theorem witness_PlannerReadsHandOverTheFrame :
    let b := inPart (busyWith bare (.plannerRead 15 23) [.readFrame]) .plan
    let s : State := { b with plan := { b.plan with step := .firstPolls } }
    s.part = .plan ∧ s.plan.step = .firstPolls ∧ s.serving (.plannerRead 15 23) [.readFrame] ∧ s.frameClean 23 :=
  ⟨rfl, rfl, rfl, fun _ _ => rfl⟩

theorem witness_MarkWritesOpenAndCloseAnOutage :
    (let b := inPart (busyWith (live pendingRecord) (.markWrite true) [.writeMark]) .plan
     let s : State := { b with plan := { b.plan with step := .close } }
     s.plan.step = .close ∧ s.serving (.markWrite true) [.writeMark] ∧ s.ctx 2 = some pendingRecord ∧
       pendingRecord.fast.status = .pending ∧ pendingRecord.fast.hold = .none ∧
       (∀ q, (s.pocketLink q).safeOwed = false) ∧ (s.pocketLink 31).state = .online ∧ s.entryCount 31 < 3 ∧
       s.link.queue.length + s.onlineCount = 32 ∧ ((linked s PocketLink.reset).pocketLink 2).state ≠ .online) ∧
    (inPart (busyWith bare (.markWrite false) [.writeMark]) .save).serving (.markWrite false) [.writeMark] :=
  ⟨⟨rfl, rfl, rfl, rfl, rfl, by decide +kernel, by decide +kernel, by decide +kernel, by decide +kernel, by decide +kernel⟩, rfl⟩

/-- A part in START, its scan owed, over a store that was formatted. -/
def scanningPart : State :=
  { State.reset with
    sup := { State.reset.sup with settled := true }
    store := { Store.unformatted with format := ⟨true, .standard, 16⟩ } }

theorem witness_StartScanJudgesTheHeader :
    (scanningPart.part = .start ∧ scanningPart.ctl.scanning = true ∧ scanningPart.headerSound ∧ scanningPart.sup.settled = true ∧
      scanningPart.inFlight = none) ∧ ¬ State.reset.headerSound := by
  refine ⟨⟨rfl, rfl, ?_, rfl, rfl⟩, ?_⟩
  · refine ⟨by decide +kernel, rfl, rfl, fun i h1 h2 => ?_⟩
    have all : ∀ i : Fin 96, 1 ≤ i.val →
      itemLow i.val ≤ scanningPart.store.settings.item i.val ∧ scanningPart.store.settings.item i.val ≤ itemHigh i.val := by decide +kernel
    exact all ⟨i, by omega⟩ h1
  · rintro ⟨-, h, -⟩
    exact absurd h (by decide)

theorem witness_AfterTheScanMapAndPoolsAgree :
    let found : Findings := ⟨[(429, .uncorrectable)], []⟩
    scanningPart.ctl.quarantine = 0 ∧ (after (.startScanEnd found) scanningPart).part ≠ .commission ∧
      exec (.startScanEnd found) scanningPart = .next (after (.startScanEnd found) scanningPart) :=
  ⟨rfl, by decide +kernel, rfl⟩

/-- The part of `bare` with its patrol cursor at word `n`. -/
def atWord (s : State) (n : Nat) : State := { s with ctl := { s.ctl with cursor := n } }

theorem witness_PatrolActsOnWhatItReads :
    (let s := atWord bare 429; s.ctl.cursor = 429 ∧ 429 < 430 ∧ s.inQuarantine 429 = false ∧ s.store.flaw 429 = none) ∧
    (let s := flawed (atWord bare 13) 13 .correctable
     s.inQuarantine 13 = false ∧ s.store.flaw 13 = some .correctable ∧ s.nonePinned ∧ s.storeWf) ∧
    (let s := flawed (atWord (live heating) 141) 141 .uncorrectable
     141 = frameWord s.geometry 5 15 ∧ 15 < frameSize s.geometry ∧ s.store.flaw 141 = some .uncorrectable ∧
       s.holderOf 5 = some (2, heating) ∧ heating.pinned = false) ∧
    (let s := flawed (atWord bare 158) 158 .uncorrectable
     158 = frameWord s.geometry 7 0 ∧ s.holderOf 7 = none ∧ 7 ∈ s.ctl.free ∧ s.store.flaw 158 = some .uncorrectable) ∧
    (let s := flawed (atWord bare 45) 45 .uncorrectable; 45 = mapWord 31 ∧ s.store.flaw 45 = some .uncorrectable ∧ s.storeWf) ∧
    (let s := flawed (atWord bare 0) 0 .uncorrectable; s.store.flaw 0 = some .uncorrectable ∧ s.storeWf) := by
  refine ⟨by decide +kernel, ⟨by decide +kernel, by decide +kernel, nonePinned_of _ (by decide +kernel), ?_⟩, by decide +kernel,
    by decide +kernel, ⟨rfl, by decide +kernel, ?_⟩, by decide +kernel, ?_⟩ <;> (unfold State.storeWf; decide +kernel)

/-- A record whose heat, or motor, is confirmed on. -/
def confirmed (c : Context) : State :=
  let b := linked (live c) { onlinePocket with motorBelieved := true, heatBelieved := some 2, lastLevel := some 2 }
  { b with heat := { HeatUnit.reset with reserved := upd HeatUnit.reset.reserved 2 (some 5) } }

/-- A record that cools first at `level`, with `n` seconds to go. -/
def coolingFirst (level n : Nat) : Context :=
  ctxOf { cooling.fast with cool := n, status := .running, cls := some .coolFirst, level := some level }

theorem witness_ClockStepCountsWhatRuns :
    (inPart bare .plan).part ≠ .active ∧
    (let c := ctxOf { heating.fast with hold := .door }; (live c).ctx 2 = some c ∧ c.fast.hold ≠ .none) ∧
    ((live heating).ctx 2 = some heating ∧ (live heating).heatConfirmed 2 = false) ∧
    (let c := ctxOf { heating.fast with heat := 2 }; (confirmed c).ctx 2 = some c ∧ (confirmed c).heatConfirmed 2 = true ∧ 1 < c.fast.heat) ∧
    (let c := ctxOf { heating.fast with heat := 1 }; (confirmed c).ctx 2 = some c ∧ (confirmed c).heatConfirmed 2 = true ∧ c.fast.heat ≤ 1) ∧
    ((live cooling).ctx 2 = some cooling ∧ (live cooling).motorConfirmed 2 = false) ∧
    (let c := ctxOf { cooling.fast with cool := 1 }
     (confirmed c).ctx 2 = some c ∧ (confirmed c).motorConfirmed 2 = true ∧ c.awaitCool = false ∧ c.fast.cool ≤ 1 ∧ c.fast.cls ≠ some .coolFirst) ∧
    (let c := coolingFirst 12 1
     let s (y : Nat) := linked (confirmed c) { (confirmed c).pocketLink 2 with exhaust := some y }
     (s 0).ctx 2 = some c ∧ (s 0).motorConfirmed 2 = true ∧ c.coolsFirst 1 ∧ 0 ≤ (s 0).exitThreshold ∧ (s 200).exitThreshold < 200) ∧
    (let c := creasing ⟨9, 50, 1, false⟩; (live c).ctx 2 = some c ∧ c.fast.hold = .none ∧ c.fast.phase = .crease) ∧
    (let c : Context := { creasing ⟨9, 50, 2, true⟩ with tumbleLeft := some 2 }; (live c).ctx 2 = some c ∧ 1 < c.tumbleLeft.getD 0) := by
  unfold Context.coolsFirst; decide +kernel

theorem witness_ExitsTakeTheRecordOn :
    (let c := ctxOf { heating.fast with heat := 0 }
     ((confirmed c).powered = true ∧ (confirmed c).part = .active ∧ (confirmed c).ctx 2 = some c ∧ c.fast.hold = .none) ∧
       c.fast.phase = .heat ∧ c.fast.heat = 0 ∧ (confirmed c).heatConfirmed 2 = true ∧ (confirmed c).checkpointQueued 2 = false ∧
       ((confirmed c).pocketLink 2).motorBelieved = true ∧ (confirmed c).posts 2 .heatOff) ∧
    (let c := ctxOf { cooling.fast with cool := 0 }
     (confirmed c).ctx 2 = some c ∧ c.fast.phase = .cool ∧ c.fast.cool = 0 ∧ c.awaitCool = false ∧ (confirmed c).motorConfirmed 2 = true ∧
       c.fast.cls ≠ some .coolFirst ∧ c.tumbleGranted = false ∧ (confirmed c).posts 2 .stop) ∧
    (confirmed (ctxOf { heating.fast with heat := 0 })).waitsOnItsPhase 2 := by
  unfold State.posts
  refine ⟨by decide +kernel, by decide +kernel, ?_⟩
  intro x _
  cases x <;> decide +kernel

theorem witness_TumblesComeAndGo :
    (let cp : CreaseProgress := ⟨9, 50, 0, false⟩
     let s := linkQueue (live (creasing cp)) [Entry.fresh (some 2) .run]
     s.runs 2 (creasing cp) ∧ cp.window = 0 ∧ s.queued 2 .run = true ∧ s.posts 2 .stop) ∧
    (let cp : CreaseProgress := ⟨1, 0, 9, true⟩
     let c : Context := { creasing cp with tumbleLeft := some 0 }
     (confirmed c).runs 2 c ∧ c.fast.progress = some cp ∧ cp.tumbling = true ∧ c.tumbleLeft = some 0 ∧ cp.remaining ≠ 0 ∧
       ((confirmed c).pocketLink 2).motorBelieved = true ∧ (confirmed c).posts 2 .stop) ∧
    (let cp : CreaseProgress := ⟨0, 0, 9, true⟩
     let c : Context := { creasing cp with tumbleLeft := some 0 }
     (live c).runs 2 c ∧ cp.remaining = 0) ∧
    (let cp : CreaseProgress := ⟨1, 0, 9, false⟩; (live (creasing cp)).runs 2 (creasing cp) ∧ cp.nextDue = 0) := by
  unfold State.runs State.posts; decide +kernel

/-- A POLL to pocket 2 as it waits. -/
def pollEntry : Entry := Entry.fresh (some 2) .poll

theorem witness_OldestEntryIsSent :
    (asking bare pollEntry).inFlight ≠ none ∧
    (let w : Entry := { Entry.fresh (some 3) .run with state := .waitRetry 1 }
     let s := linkQueue bare [w, pollEntry]
     s.inFlight = none ∧ s.link.queue = [w] ++ pollEntry :: [] ∧ pollEntry.ready = true ∧
       (∀ x ∈ [w], x.ready = false ∧ x.pocket ≠ pollEntry.pocket) ∧ pollEntry.state = .unsent ∧ pollEntry.pocket ≠ none) ∧
    (Entry.fresh none .safe).ready = true ∧
    (let r : Entry := { Entry.fresh (some 2) .run with state := .waitRetry 0 }
     let s := linkQueue bare [r]
     s.link.queue = [] ++ r :: [] ∧ r.ready = true ∧ r.state ≠ .unsent ∧ r.kind = .run ∧ (s.pocketLink 2).runAuthority = false) := by
  decide +kernel

/-- The entry in flight of `asking`. -/
def flight (k : CommandKind) (silent attempts : Nat) : Entry :=
  { Entry.fresh (some 2) k with state := .inFlight, silent := silent, attempts := attempts }

/-- The last send of a POLL to pocket 2 in link state `st`. -/
def silentPoll (s : State) (st : LinkState) (n : Nat) : State := asking (linked s { onlinePocket with state := st }) (flight .poll n 0)

theorem asking_exchanging (s : State) (k : CommandKind) (n m : Nat) (h : s.powered = true) (h' : s.part = .active) :
    (asking s (flight k n m)).exchanging 2 (flight k n m) := ⟨h, h', rfl, rfl⟩

theorem asking_noBroadcast (s : State) (e : Entry) : (asking s e).noBroadcast := by
  intro x hx
  simp [asking] at hx
  simp [hx]

theorem witness_SilenceLeadsToOffline :
    ((silentPoll bare .online 2).exchanging 2 (flight .poll 2 0) ∧ (silentPoll bare .online 2).noBroadcast ∧
      ((silentPoll bare .online 2).pocketLink 2).state = .online) ∧
    ((silentPoll (live heating) .unknown 3).exchanging 2 (flight .poll 3 0) ∧ (silentPoll (live heating) .unknown 3).waitsOnItsPhase 2 ∧
      ((silentPoll (live heating) .unknown 3).pocketLink 2).state = .unknown ∧
      ((silentPoll (live heating) .unknown 3).pocketLink 2).probeOwed = false ∧
      (silentPoll (live heating) .unknown 3).ctx 2 = some heating) ∧
    ((silentPoll bare .offline 0).exchanging 2 (flight .poll 0 0) ∧ ((silentPoll bare .offline 0).pocketLink 2).state = .offline) ∧
    ((silentPoll bare .fault 0).exchanging 2 (flight .poll 0 0) ∧ ((silentPoll bare .fault 0).pocketLink 2).state = .fault) :=
  ⟨⟨asking_exchanging _ _ _ _ rfl rfl, asking_noBroadcast _ _, by decide +kernel⟩,
    ⟨asking_exchanging _ _ _ _ rfl rfl, waits_of_reset _ _ rfl, by decide +kernel, by decide +kernel, by decide +kernel⟩,
    ⟨asking_exchanging _ _ _ _ rfl rfl, by decide +kernel⟩, asking_exchanging _ _ _ _ rfl rfl, by decide +kernel⟩

/-- Section 11.4: a STATUS reply of pocket 2, motor running and exhaust 41, whose CRC-8 is C7h by a computation outside Lean,
brings the pocket ONLINE; with a wrong CRC it is no good reply (R84, R88, R198). -/
theorem test_received_status :
    let s := silentPoll bare .unknown 0
    let t := after (.statusArrival 2 (.bytes [0x02, 0x81, 0x04, 0x29, 0xC7])) s
    (t.pocketLink 2).state = .online ∧ (t.pocketLink 2).motorBelieved = true ∧ (t.pocketLink 2).exhaust = some 41 ∧
      ((after (.statusArrival 2 (.bytes [0x02, 0x81, 0x04, 0x29, 0x00])) s).pocketLink 2).state = .unknown := by decide +kernel

/-- A STATUS with the door, the latch and the motor fault as given. -/
def statusOf (door latch fault : Bool) (exhaust : Nat) : StatusReport := ⟨door, latch, false, false, fault, false, exhaust⟩

theorem witness_StatusIsTaken :
    ((silentPoll (live heating) .online 0).exchanging 2 (flight .poll 0 0) ∧ (flight .poll 0 0).kind = .poll) ∧
    ((statusOf false false false 254).exhaust < 255 ∧ ¬ (statusOf false false false 255).exhaust < 255) ∧
    ((silentPoll bare .offline 0).pocketLink 2).state = .offline ∧
    ((statusOf false false true 0).motorFault = true ∧ ((silentPoll bare .online 0).pocketLink 2).state = .online) ∧
    ((silentPoll (live heating) .online 0).ctx 2 = some heating ∧ heating.fast.hold = .none ∧ (statusOf true false false 0).doorOpen = true) ∧
    (let s := silentPoll (live (at_ .done)) .online 0
     let t : State := { s with ctl := { s.ctl with loaded := Settings.default.withItem 2 1 } }
     t.ctx 2 = some (at_ .done) ∧ t.setting 2 = 1) ∧
    (let c := ctxOf { cooling.fast with hold := .door }
     (silentPoll (live c) .online 0).ctx 2 = some c ∧ c.fast.status = .none ∧ (statusOf false false false 0).latch = false) ∧
    (silentPoll (live (at_ .staged)) .online 0).ctx 2 = some (at_ .staged) ∧
    (let s := silentPoll bare .online 0
     (statusOf false true false 0).latch = true ∧ s.ctx 2 = none ∧ (s.pocketLink 2).latchSeen = false ∧
       (∀ q, (s.pocketLink q).safeOwed = false) ∧ s.link.queue.length < 30 ∧ s.entryCount 2 = 1) ∧
    (let s := silentPoll (live heating) .online 0
     ({ statusOf false false false 0 with heatFault := true } : StatusReport).heatFault = true ∧ s.ctx 2 = some heating ∧
       heating.fast.phase = .heat ∧ s.waitsOnItsPhase 2 ∧ s.geometry = .standard) ∧
    (let s := asking (confirmed heating) (flight .poll 0 0)
     s.exchanging 2 (flight .poll 0 0) ∧ (s.pocketLink 2).motorBelieved = true ∧ (statusOf false false false 0).motorRunning = false) ∧
    (let c := coolingFirst 15 0
     (silentPoll (live c) .online 0).ctx 2 = some c ∧ c.coolsFirst 0 ∧
       (silentPoll (live c) .online 0).coolEnough 2 (statusOf false false false 0) ∧
       (silentPoll (live c) .online 0).coolEnough 2 (statusOf false false false 255)) :=
  ⟨⟨asking_exchanging _ _ _ _ rfl rfl, rfl⟩, by decide, by decide +kernel, by decide +kernel, by decide +kernel, by decide +kernel,
    by decide +kernel, by decide +kernel, by decide +kernel, ⟨rfl, by decide +kernel, rfl, waits_of_reset _ _ rfl, rfl⟩,
    ⟨asking_exchanging _ _ _ _ rfl rfl, by decide +kernel, rfl⟩, by decide +kernel, by unfold Context.coolsFirst; decide +kernel,
    fun y h => by simp [statusOf] at h; omega, fun y h => nomatch h⟩

theorem witness_AcknowledgementsAreTaken :
    (let x : Slot := ⟨2, .awaitAck, 7, 1, some 9, false⟩
     let s := asking (live heating) (flight .run 0 0)
     let t : State := { s with arb := { s.arb with slots := [x] } }
     t.exchanging 2 (flight .run 0 0) ∧ t.slotOf 2 = some x ∧ t.ctx 2 = some heating ∧ (t.pocketLink 2).motorBelieved = false ∧
       t.draw 2 ≤ t.budget (t.phaseOf 2) ∧ (t.pocketLink 2).heatBelieved = none ∧ t.hasReservation 2 = false ∧
       t.waitList (t.phaseOf 2) = [] ∧ t.sag.active = false ∧ t.reservedSum (t.phaseOf 2) + t.draw 2 ≤ t.budget (t.phaseOf 2) ∧
       (t.pocketLink 2).state = .online ∧ (∀ q, (t.pocketLink q).safeOwed = false) ∧ t.link.queue.length < 32 ∧ t.entryCount 2 ≤ 3) ∧
    (asking (live pendingRecord) (flight .run 0 0)).ctx 2 = some pendingRecord ∧
    (let c := creasing ⟨9, 50, 1400, false⟩; (asking (live c) (flight .run 0 0)).ctx 2 = some c) ∧
    (let s := asking (linked (live heating) { onlinePocket with motorBelieved := true }) (flight .heatOn 0 0)
     let t : State := { s with heat := { HeatUnit.reset with reserved := upd HeatUnit.reset.reserved 2 (some 5) } }
     t.exchanging 2 (flight .heatOn 0 0) ∧ t.heatDesired 2 = true ∧ (t.pocketLink 2).heatBelieved = none) ∧
    (let c := ctxOf { heating.fast with status := .running, cls := some .reheat, level := some 9 }
     (asking (live c) (flight .heatOn 0 0)).ctx 2 = some c ∧ c.fast.status = .running) :=
  ⟨⟨asking_exchanging _ _ _ _ rfl rfl, by decide +kernel⟩, by decide +kernel, by decide +kernel, ⟨asking_exchanging _ _ _ _ rfl rfl, by decide +kernel, by decide +kernel⟩, by decide +kernel⟩

theorem witness_RefusalsAreActedOn :
    (let s := asking (live heating) (flight .run 0 0)
     s.exchanging 2 (flight .run 0 0) ∧ (s.pocketLink 2).state = .online ∧ (s.pocketLink 2).startAttempts + 1 < s.setting 3 ∧ s.noBroadcast) ∧
    (let s := asking (linked (live heating) { onlinePocket with startAttempts := bare.setting 3 - 1 }) (flight .run 0 0)
     s.exchanging 2 (flight .run 0 0) ∧ s.setting 3 ≤ (s.pocketLink 2).startAttempts + 1) ∧
    (let e := flight .heatOn 0 (bare.setting 3 - 2)
     (asking (live heating) e).exchanging 2 e ∧ e.attempts + 1 < (asking (live heating) e).setting 3) ∧
    (let e := flight .heatOn 0 (bare.setting 3 - 1)
     (asking (live heating) e).exchanging 2 e ∧ (asking (live heating) e).setting 3 ≤ e.attempts + 1 ∧
       (asking (live heating) e).ctx 2 = some heating) ∧
    (let x : Slot := ⟨2, .awaitAck, 7, 1, some 9, false⟩
     let s := asking (live cooling) (flight .run 0 0)
     let t : State := { s with arb := { s.arb with slots := [x] } }
     t.exchanging 2 (flight .run 0 0) ∧ t.ctx 2 = some cooling ∧ t.slotOf 2 = some x) :=
  ⟨⟨asking_exchanging _ _ _ _ rfl rfl, by decide +kernel, by decide +kernel, asking_noBroadcast _ _⟩,
    ⟨asking_exchanging _ _ _ _ rfl rfl, by decide +kernel⟩, ⟨asking_exchanging _ _ _ _ rfl rfl, by decide +kernel⟩,
    ⟨asking_exchanging _ _ _ _ rfl rfl, by decide +kernel, by decide +kernel⟩, asking_exchanging _ _ _ _ rfl rfl, by decide +kernel,
    by decide +kernel⟩

theorem witness_PostedCommandsAreAcknowledged :
    (asking bare (flight .stop 0 0)).exchanging 2 (flight .stop 0 0) ∧ (asking bare (flight .heatOff 0 0)).exchanging 2 (flight .heatOff 0 0) ∧
    (asking bare (flight .safe 0 0)).exchanging 2 (flight .safe 0 0) ∧
    (asking bare (flight .clearDoor 0 0)).exchanging 2 (flight .clearDoor 0 0) :=
  ⟨asking_exchanging _ _ _ _ rfl rfl, asking_exchanging _ _ _ _ rfl rfl, asking_exchanging _ _ _ _ rfl rfl,
    asking_exchanging _ _ _ _ rfl rfl⟩

theorem witness_PollsAreSkippedNotQueuedTwice :
    (bare.part = .active ∧ (15 : Pocket).val < bare.count ∧ (bare.pocketLink 15).state = .online) ∧
    (let s := linked bare { PocketLink.reset with state := .offline }
     (s.pocketLink 2).state = .offline ∧ s.link.queue.length < 32 ∧ s.entryCount 2 < 3 ∧ s.unsent 2 .poll = false) := by
  decide +kernel

/-- A desired motor and one slot of pocket 2. -/
def slotted (c : Context) (x : Slot) : State := let s := live c; { s with arb := { s.arb with slots := [x] } }

theorem witness_SlotsAreReleased :
    (let x : Slot := ⟨2, .starting, 7, 0, none, false⟩
     let s := slotted heating x
     s.slotOf 2 = some x ∧ s.request 2 = none ∧ x.stage = .starting ∧ x.carried = none) ∧
    (let x : Slot := ⟨2, .starting, 7, 0, some 15, false⟩
     let s := slotted heating x
     s.slotOf 2 = some x ∧ s.motorDesired 2 = true ∧ (s.pocketLink 2).motorBelieved = false) ∧
    (let x : Slot := ⟨2, .awaitAck, 7, 0, none, true⟩; (slotted heating x).slotOf 2 = some x ∧ x.doorRefused = true) ∧
    (let x : Slot := ⟨2, .awaitAck, 7, 0, some 9, false⟩
     let s := slotted heating x
     s.slotOf 2 = some x ∧ s.motorDesired 2 = true ∧ (s.pocketLink 2).state = .online) := by
  decide +kernel

theorem witness_GrantGoesToTheWinner :
    (let s := requesting 0xFFFF
     s.grantAllowed ∧ s.wins 2 7 ∧ s.slotOf 2 = none ∧ s.motorDesired 2 = true ∧ (s.pocketLink 2).motorBelieved = false ∧ s.posts 2 .run) ∧
    ({ bare with sag := { SagThrottle.reset with active := true } } : State).sag.active = true ∧
    (∀ q, bare.eligible q = false) := by
  refine ⟨⟨⟨rfl, rfl, by decide +kernel, rfl⟩, requesting_wins _ (by decide), by decide +kernel, by decide +kernel, by decide +kernel, ?_⟩, rfl,
    by decide +kernel⟩
  unfold State.posts; decide +kernel

theorem witness_SagPulsesThrottleTheBank :
    (let s : State := { bare with sag := { SagThrottle.reset with count := 0, windowRuns := true } }
     s.sag.active = false ∧ s.sag.count + 1 < s.setting 12 ∧ s.sag.windowRuns = true) ∧
    (let s : State := { bare with sag := { SagThrottle.reset with count := bare.setting 12 - 1 } }
     s.sag.active = false ∧ s.setting 12 ≤ s.sag.count + 1) ∧
    ({ inPart bare .plan with sag := { SagThrottle.reset with active := true } } : State).sag.active = true := by
  decide +kernel

theorem witness_WarningOpensTheSave :
    ({ bare with sup := { bare.sup with pfw := true } } : State).sup.pfw = true ∧
    ((inPart bare .dark).sup.pfw = false ∧ (inPart bare .dark).part ≠ .active ∧ (inPart bare .dark).part ≠ .plan) ∧
    (bare.sup.pfw = false ∧ bare.part = .active ∧ bare.ctl.current = none ∧ bare.sup.mark.valid = false) ∧
    ((queued bare [.translation (.start 2)]).ctl.queue.any StoreOp.hostWaits = true) ∧
    (busyWith bare (.checkpoint 2) []).ctl.current = some (Running.of (.checkpoint 2) []) := by
  decide +kernel

theorem witness_MainsSettles :
    (bare.sup.mainsOk = true ∧ ({ bare with sup := { bare.sup with mainsOk := false } } : State).sup.mainsOk = false) ∧
    bare.sup.settled = true ∧
    (State.reset.sup.linesGood = true ∧ State.reset.sup.settled = false) ∧
    (let s := inPart { bare with sup := { bare.sup with settled := false } } .dark
     s.sup.linesGood = true ∧ s.sup.settled = false ∧ s.part = .dark) ∧
    (let s := inPart { bare with sup := { bare.sup with settled := false } } .start; s.part = .start ∧ s.ctl.scanDone = true) ∧
    (inPart { bare with sup := { bare.sup with settled := false } } .commission).part ≠ .start := by
  decide +kernel

theorem witness_BackupDomainMeasuresTheOutage :
    (let s : State := { bare with backup := { bare.backup with running := true, timer := 86400 }, powered := false }
     s.backup.running = true ∧ s.backup.lost = false ∧ s.powered = false) ∧
    bare.backup.running = false ∧
    (let s : State := { bare with powered := false }
     s.powered = false ∧ (⟨true, false, true⟩ : SupplyLevels).vbkGood = true ∧ s.backup.lost = false) ∧
    (let s : State := { bare with powered := false, backup := { bare.backup with lost := true } }
     s.powered = false ∧ s.backup.lost = true) := by
  decide +kernel

theorem witness_ResetsKeepTheStore :
    bare.powered = true ∧ ({ bare with powered := false } : State).powered = false ∧ (∀ x, Instr.status ≠ .powerOn x) := by
  refine ⟨rfl, rfl, fun x h => by cases h⟩

/-- A part in PLAN whose first-poll window of pocket `p` is open. -/
def polling (p : Pocket) : State :=
  let s := inPart bare .plan
  { s with plan := { s.plan with step := .firstPolls, window := some ⟨p, 0, some 0⟩ } }

/-- The image of a record in DONE, and of one in STAGED. -/
def imageOf (ph : Phase) : Image := { frame := 5, bad := [], data := { Frame.blank with fast := { Fast.zero with phase := ph } } }
def doneImage : Image := imageOf .done
def stagedImage : Image := imageOf .staged

/-- The last first-poll window is open, the image of pocket 2 has been read, and its door is open in a bank that retires. -/
def planReady (x : Image) : State :=
  let s := polling 15
  { s with
    plan := { s.plan with images := upd s.plan.images 2 (some x), first := upd s.plan.first 2 (some (statusOf true false false 30)) }
    ctl := { s.ctl with loaded := Settings.default.withItem 2 1 } }

theorem planReady_plansFirst (x : Image) : (planReady x).plansFirst 2 x :=
  ⟨rfl, rfl, ⟨_, rfl, (by decide +kernel : bare.count ≤ 16)⟩, (by decide +kernel : 2 < bare.count), fun _ => rfl, rfl, rfl, by
    show ∀ q : Pocket, q.val < 2 → (upd (polling 15).plan.images 2 (some x))[q] = none
    intro q h
    have only : ∀ q : Pocket, q.val < 2 → q = 0 ∨ q = 1 := by decide
    rcases only q h with rfl | rfl <;> rfl, fun y h => nomatch h⟩

theorem witness_FirstPollsGoPocketByPocket :
    ((polling 14).plan.window = some ⟨14, 0, some 0⟩ ∧ (15 : Pocket).val = (14 : Pocket).val + 1 ∧ (15 : Pocket).val < (polling 14).count ∧
      (polling 14).admits 15 .poll = true ∧ (polling 14).unsent 15 .poll = false) ∧
    ((polling 15).count ≤ (15 : Pocket).val + 1 ∧ 0 < (polling 15).count ∧
      (queued (polling 15) [.plannerRead 0 5]).opStands (·.isPlannerReadOf 0) = true) ∧
    ((∀ e ∈ (polling 2).link.queue, e.isFor 2 = false) ∧ (polling 2).link.queue.length < 32) ∧
    (∃ e ∈ (linkQueue (polling 2) [pollEntry]).link.queue, e.isFor 2 = true) ∧
    ((planReady doneImage).plansFirst 2 doneImage ∧ (planReady doneImage).plan.window.map (·.pocket) = some 15 ∧
      ((planReady doneImage).planningBegun.planInputs 2 doneImage).outcome = .retire) ∧
    ((planReady stagedImage).plansFirst 2 stagedImage ∧
      stagedImage.commitMove = false ∧ ((planReady stagedImage).pocketLink 2).state = .online ∧
      ∃ f a b, ((planReady stagedImage).planningBegun.planInputs 2 stagedImage).outcome = .commit f a b) ∧
    (let x : Image := { imageOf .heat with bad := [1] }
     let s := linked (planReady x) { onlinePocket with state := .offline }
     s.plansFirst 2 x ∧ x.commitMove = true ∧ (s.pocketLink 2).state ≠ .online ∧
       ∃ f a b, (s.planningBegun.planInputs 2 x).outcome = .commit f a b ∧ f.phase ≠ .staged ∧ f.phase ≠ .done ∧ f.hold ≠ .damaged) := by
  refine ⟨by decide +kernel, by decide +kernel, by decide +kernel, by decide +kernel, ⟨planReady_plansFirst _, rfl, by decide +kernel⟩,
    ⟨planReady_plansFirst _, rfl, by decide +kernel, _, _, _, rfl⟩, planReady_plansFirst _, rfl, by decide +kernel, _, _, _, rfl, by decide +kernel,
    by decide +kernel, by decide +kernel⟩

theorem witness_EstimateIsTheDecayedExcess :
    (86400 ≤ 86400 ∧ 60 ≤ 60 ∧ 60 ≤ 7200) ∧ (8 * 1000 / 1200 / 8 < 17 ∧ 17 ≤ 8 * 86400 / 60 / 8) ∧ 65536 ≤ 65536 ∧ 1000 ≤ 86400 ∧
    (planned settings881 ⟨true, 42, 88000⟩ (some 1000) true 0 none 41 fast881).outcome ≠ .retire := by
  decide +kernel

/-- A saved record planned after an outage of 1,000 s, with the door as given. -/
def plannedAt (ph : Phase) (door : Bool) (set : Settings) : PlanInputs :=
  { planned set ⟨true, 42, 88000⟩ (some 1000) true 0 none 30 { Fast.zero with phase := ph, heat := 600, temp := 40 } with
    first := some (statusOf door false false 30) }

theorem witness_DoneAndStagedStayAsTheyWere :
    (let i := plannedAt .done true (Settings.default.withItem 2 1)
     i.damagedRecord = false ∧ i.fast.hold ≠ .damaged ∧ i.fast.phase = .done ∧ i.door = true ∧ i.settings.item 2 = 1) ∧
    (let i := plannedAt .done true (Settings.default.withItem 2 0); i.door = true ∧ i.settings.item 2 ≠ 1 ∧ i.fast.phase = .done) ∧
    (let i := plannedAt .done false Settings.default; i.door = false ∧ i.fast.phase = .done) ∧
    (let i := plannedAt .staged true Settings.default; i.damagedRecord = false ∧ i.fast.phase = .staged) := by
  decide +kernel

theorem witness_PlannerNeverHeatsAHotLoad :
    (let i := plannedAt .heat false Settings.default
     ({ i with image := { i.image with bad := [2] } } : PlanInputs).image.damaged = true) ∧
    (let i := planned Settings.default ⟨true, 42, 512300⟩ (some 1263) true 0 (some ⟨41, 5⟩) 62 fast882
     i.damagedRecord = false ∧ i.fast.hold ≠ .damaged ∧ i.fast.phase = .cool ∧ i.threshold i.fast ≤ i.res) ∧
    (∃ f a b, (planned settings881 ⟨true, 42, 88000⟩ (some 1000) true 0 none 41 fast881).outcome = .commit f a b ∧ f.phase = .heat ∧
      f.hold = .none) ∧
    (∃ f a b, (plannedAt .staged true Settings.default).outcome = .commit f a b ∧ f.status = .none) :=
  ⟨by decide +kernel, by decide +kernel, ⟨_, _, _, test_case_8_8_1, rfl, rfl⟩, ⟨_, _, _, rfl, rfl⟩⟩

theorem witness_PartStateMovesAlongItsArcs :
    exec (.startScanEnd noFailures) scanningPart = .next (after (.startScanEnd noFailures) scanningPart) ∧
      (after (.startScanEnd noFailures) scanningPart).part ≠ scanningPart.part := ⟨rfl, by decide +kernel⟩

/-- A step from `s` with command `c` in front. -/
def waiting (s : State) (c : Instr) : State := { s with pending := [c] }

theorem witness_StoreFormIsKept :
    (waiting (flawed bare 429 .uncorrectable) (.patrolRead ⟨[(0, .correctable)], []⟩)).storeWf ∧
      ∃ t, step (waiting (flawed bare 429 .uncorrectable) (.patrolRead ⟨[(0, .correctable)], []⟩)) = .next t :=
  ⟨by unfold State.storeWf; decide +kernel, _, rfl⟩

theorem heatKept_bare : ∀ x, bare.reservedSum x ≤ bare.budget x := by
  intro x; cases x <;> decide +kernel

theorem witness_HeatBudgetIsKept :
    (waiting bare .clockStep).heatKept ∧ ∃ t, step (waiting bare .clockStep) = .next t := by
  refine ⟨⟨heatKept_bare, fun p x h => ?_, fun h => absurd rfl h⟩, _, rfl⟩
  cases x <;> exact absurd h (by simp [State.waitList, waiting, bare, State.reset, HeatUnit.reset])

theorem witness_StartSlotsAreKept :
    (waiting (slotted heating ⟨2, .starting, 7, 0, none, false⟩) (.startWindowEnd 2)).slotsKept ∧
      ∃ t, step (waiting (slotted heating ⟨2, .starting, 7, 0, none, false⟩) (.startWindowEnd 2)) = .next t := by
  refine ⟨?_, _, rfl⟩
  unfold State.slotsKept Arbiter.wf
  decide +kernel

end Sys2Proof.Tests
end

section
/-! SUPPORT. EXTEND (R26): the request that its translation has brought to its record, the clamped sum it leaves, and that
a field which has changed is among the words of the next checkpoint. -/

namespace Sys2Proof.Machine

/-! ### A request that reaches its record -/

theorem Work.onCtx_of_ctx {w : Work} {p : Pocket} {c : Context} (h : w.ctx p = some c) (f : Context → Context) :
    w.onCtx p f = w.setCtx p (some (f c)) := by
  simp [Work.onCtx, h]

theorem Work.onFast_of_ctx {w : Work} {p : Pocket} {c : Context} (h : w.ctx p = some c) (f : Fast → Fast) :
    w.onFast p f = w.setCtx p (some (c.change f)) :=
  Work.onCtx_of_ctx h _

/-- The checks of R23 passed, a translated request is taken on its record. -/
theorem Work.translated_live {w : Work} {req : HostReq} {p : Pocket} {e : MapEntry} {c : Context} (ha : w.part = .active)
    (hm : w.ctl.mapFault.has p = false) (hv : e.valid = true) (hc : w.ctx p = some c) (ho : ∀ q a, req ≠ .openRecord q a)
    (hp : c.fast.status = .pending → takenWhilePending req = true) :
    w.translated req p e = w.onRecord req p c := by
  have taken : ¬(c.fast.status = .pending ∧ (!takenWhilePending req) = true) := by simpa using hp
  unfold Work.translated
  rw [if_neg (not_not_intro ha), if_neg (by simp [hm])]
  cases req with
  | openRecord q a => exact absurd rfl (ho q a)
  | _ => simp only [hv, if_true, hc, if_neg taken]

/-- The end of the translation read of a request that reaches its record: the request is taken on the record and the
operation ends (R23, R38). -/
theorem exec_translationReadEnd_of_reaches {s : State} {req : HostReq} {p : Pocket} {c : Context} (h : s.reaches req p c)
    (ho : ∀ q a, req ≠ .openRecord q a) (hp : c.fast.status = .pending → takenWhilePending req = true) :
    ∃ r, exec (.translationReadEnd noFailures) s =
      .next ((Work.onRecord (Work.begin { s with ctl := { s.ctl with current := some r } }) req p c).endOp r).finish := by
  obtain ⟨⟨e, ht, hv⟩, hc⟩ := h
  have hexec := exec_translationReadEnd ht
  obtain ⟨_, ha, _, _, _, _, hm⟩ := ht
  rw [Work.translated_live (by exact ha) (by exact hm) hv (by exact hc) ho hp] at hexec
  exact ⟨_, hexec⟩

/-- In ACTIVE an operation that ends owing nothing leaves the state as it stands, the store free. -/
theorem Work.endOp_finish_of_quiet {w : Work} (ha : w.part = .active) (hq : w.quiet = true) (r : Running) :
    (w.endOp r).finish = w.storeFreed := by
  rw [Work.endOp_active ha, Work.finish_of_quiet _ (by exact hq)]
  rfl

/-! ### What EXTEND does -/

theorem clampTo_zero (hi n : Nat) : clampTo 0 hi n = min hi n := by
  rw [clampTo, if_neg (Nat.not_lt_zero n)]
  split_ifs <;> omega

/-- R26: the smaller of 7,200 and the heat remaining plus the clamped addition. -/
theorem extended_fst (heat n : Nat) : (extended heat n).1 = min 7200 (heat + min 7200 n) := by
  simp only [extended, clampTo_zero, Config.heatMax]

/-- EXTEND clamps nothing exactly where the addition and the sum are within 7,200 s. -/
theorem extended_snd_eq_false (heat n : Nat) : (extended heat n).2 = false ↔ n ≤ 7200 ∧ heat + n ≤ 7200 := by
  simp only [extended, clampTo_zero, Config.heatMax, Bool.or_eq_false_iff, bne_eq_false_iff_eq]
  omega

theorem Work.takeExtend_of_paid {w : Work} {p : Pocket} {c : Context} (hc : w.ctx p = some c)
    (h : c.fast.phase = .staged ∨ c.fast.phase = .heat) (n : Nat) :
    w.takeExtend p c n = (w.setCtx p (some (c.change fun f => { f with heat := min 7200 (c.fast.heat + min 7200 n) }))).respond
      (if n ≤ 7200 ∧ c.fast.heat + n ≤ 7200 then .ok else .okClamped) [] := by
  have hr : (if (extended c.fast.heat n).2 then Result.okClamped else .ok) =
      if n ≤ 7200 ∧ c.fast.heat + n ≤ 7200 then .ok else .okClamped := by
    simp only [← extended_snd_eq_false]
    cases (extended c.fast.heat n).2 <;> rfl
  simp only [Work.takeExtend, if_pos h, Work.onFast_of_ctx hc, extended_fst, hr]

theorem Work.takeExtend_of_unpaid {w : Work} {p : Pocket} {c : Context}
    (h : c.fast.phase = .cool ∨ c.fast.phase = .crease ∨ c.fast.phase = .done) (n : Nat) :
    w.takeExtend p c n = w.respond .state [] :=
  if_neg (by rcases h with h | h | h <;> simp [h])

theorem Work.onRecord_extend (w : Work) (q n : Nat) (p : Pocket) (c : Context) :
    w.onRecord (.extend q n) p c = w.takeExtend p c n := rfl

/-- EXTEND on the record it reaches, whatever holds or resumes it (R23, R26). -/
theorem exec_extend_of_reaches {s : State} {p : Pocket} {c : Context} {n : Nat} (h : s.reaches (.extend p.val n) p c) :
    ∃ r, exec (.translationReadEnd noFailures) s =
      .next ((Work.takeExtend (Work.begin { s with ctl := { s.ctl with current := some r } }) p c n).endOp r).finish := by
  obtain ⟨r, hexec⟩ := exec_translationReadEnd_of_reaches h (fun _ _ => HostReq.noConfusion) fun _ => rfl
  exact ⟨r, by rw [hexec, Work.onRecord_extend]⟩

/-! ### A changed field and the next checkpoint -/

/-- A changed heat remaining is among the fields that differ (R59). -/
theorem Fast.diff_has_heat {a b : Fast} (h : a.heat ≠ b.heat) : (Fast.diff a b).has 3 = true := by
  simp [Fast.diff, FieldSet.has, h]

theorem Context.change_dirty_has_heat {c : Context} {f : Fast → Fast} (h : (c.change f).fast.heat ≠ c.fast.heat) :
    (c.change f).dirty.has 3 = true := by
  have differs : (Fast.diff c.fast (f c.fast)).has 3 = true := Fast.diff_has_heat h.symm
  rw [FieldSet.has] at differs ⊢
  rw [Context.change, BitVec.getLsbD_or, differs, Bool.or_true]

/-- The word that holds a dirty field is merged by the next checkpoint (R62). -/
theorem merge_mem_checkpointTodo {g : Geometry} {c : Context} {i k : Nat} (hk : k < frameSize g)
    (hi : (roleOf g k).fields.has i = true) (hd : c.dirty.has i = true) : .merge k ∈ checkpointTodo g c := by
  have common : (roleOf g k).fields &&& c.dirty ≠ 0 := fun h => by
    have hbit : ((roleOf g k).fields &&& c.dirty).getLsbD i = true := by
      rw [BitVec.getLsbD_and, Bool.and_eq_true]
      exact ⟨hi, hd⟩
    simp [h] at hbit
  have word : k ∈ wordsOf g c.dirty := by simpa [wordsOf, hk] using common
  simp [checkpointTodo, word]

/-- The heat remaining lies in word 2 of a frame of either geometry (section 2.2). -/
theorem merge_heat_mem_checkpointTodo {g : Geometry} {c : Context} (hd : c.dirty.has 3 = true) :
    .merge 2 ∈ checkpointTodo g c :=
  merge_mem_checkpointTodo (by cases g <;> decide) (by cases g <;> decide) hd

/-- Settles O15: the translated EXTEND is `Work.takeExtend`, which owes nothing, so the operation's end only frees the
store; a heat remaining that changed is dirty, and lies in word 2. -/
theorem extendAddsPaidSeconds : Obligations.ExtendAddsPaidSeconds := by
  unfold Obligations.ExtendAddsPaidSeconds
  intro p n c s h
  obtain ⟨r, hexec⟩ := exec_extend_of_reaches h
  obtain ⟨⟨_, ⟨_, ha, _⟩, _⟩, hc⟩ := h
  refine ⟨fun hphase => ?paid, fun hheat => ?dirty, fun hphase => ?refused⟩
  case paid =>
    rw [hexec, Work.takeExtend_of_paid (by exact hc) hphase, Work.endOp_finish_of_quiet (by exact ha) rfl]
    rfl
  case dirty =>
    have hd := Context.change_dirty_has_heat hheat
    exact ⟨hd, merge_heat_mem_checkpointTodo hd⟩
  case refused =>
    rw [hexec, Work.takeExtend_of_unpaid hphase, Work.endOp_finish_of_quiet (by exact ha) rfl]
    rfl

end Sys2Proof.Machine
end

section
/-! SUPPORT. The planner's arithmetic (R161, R162): the decay factor by whole eighths of a half-life, the division that
rounds up, and that every outcome of a record is a retirement or a commit at T_res. -/

namespace Sys2Proof.Machine

/-! ### The decay factor (R161) -/

/-- What is left of 65,536 after `n` eighths of a half-life, without the cut at 17 half-lives. -/
def decayAfter (n : Nat) : Nat := decayTable (n % 8) >>> (n / 8)

theorem decayTable_bounds {k : Nat} (hk : k < 8) : 35734 ≤ decayTable k ∧ decayTable k ≤ 65536 := by
  revert k
  decide

theorem decayTable_succ_le {k : Nat} (hk : k < 7) : decayTable (k + 1) ≤ decayTable k := by
  revert k
  decide

/-- Each entry is 2 to the power −k/8 in units of 1/65,536, rounded to nearest: the eighth powers of the half units below
and above it enclose 2 to the power −k. -/
theorem decayTable_nearest {k : Nat} (hk : k < 8) :
    (2 * decayTable k - 1) ^ 8 * 2 ^ k < 131072 ^ 8 ∧ 131072 ^ 8 < (2 * decayTable k + 1) ^ 8 * 2 ^ k := by
  revert k
  decide

/-- No entry has 18 bits, so 17 shifts leave nothing. -/
theorem decayAfter_eq_zero {n : Nat} (hn : 17 ≤ n / 8) : decayAfter n = 0 := by
  obtain ⟨-, most⟩ := decayTable_bounds (Nat.mod_lt n (by decide : 0 < 8))
  rw [decayAfter, Nat.shiftRight_eq_div_pow, Nat.div_eq_of_lt]
  calc decayTable (n % 8) < 2 ^ 17 := by omega
    _ ≤ 2 ^ (n / 8) := Nat.pow_le_pow_right (by decide) hn

/-- Every entry has 16 bits at least, so 15 shifts leave something. -/
theorem decayAfter_pos {n : Nat} (hn : n / 8 ≤ 15) : 0 < decayAfter n := by
  obtain ⟨least, -⟩ := decayTable_bounds (Nat.mod_lt n (by decide : 0 < 8))
  rw [decayAfter, Nat.shiftRight_eq_div_pow]
  refine Nat.div_pos ?_ (by positivity)
  calc 2 ^ (n / 8) ≤ 2 ^ 15 := Nat.pow_le_pow_right (by decide) hn
    _ ≤ decayTable (n % 8) := by omega

/-- Within a half-life the next entry is not larger; at its end the first entry, halved, is below the last. -/
theorem decayAfter_succ_le (n : Nat) : decayAfter (n + 1) ≤ decayAfter n := by
  simp only [decayAfter, Nat.shiftRight_eq_div_pow]
  rcases Nat.lt_or_ge (n % 8) 7 with within | last
  · have hk : (n + 1) % 8 = n % 8 + 1 := by omega
    have hq : (n + 1) / 8 = n / 8 := by omega
    rw [hk, hq]
    exact Nat.div_le_div_right (decayTable_succ_le within)
  · have hn : n % 8 = 7 := by omega
    have hk : (n + 1) % 8 = 0 := by omega
    have hq : (n + 1) / 8 = n / 8 + 1 := by omega
    rw [hn, hk, hq, Nat.pow_succ', ← Nat.div_div_eq_div_mul]
    exact Nat.div_le_div_right (by decide)

theorem decayAfter_antitone : Antitone decayAfter := antitone_nat_of_succ_le decayAfter_succ_le

/-- The cut at 17 half-lives changes nothing: the factor is the shifted entry whatever the outage. -/
theorem decayFactor_some (t h : Nat) : decayFactor (some t) h = decayAfter (8 * t / h) := by
  simp only [decayFactor]
  split
  · next cut => exact (decayAfter_eq_zero cut).symm
  · exact (Nat.shiftRight_eq_div_pow _ _).symm

theorem decayFactor_antitone {t t' : Nat} (ht : t ≤ t') (h : Nat) : decayFactor (some t') h ≤ decayFactor (some t) h := by
  simp only [decayFactor_some]
  exact decayAfter_antitone (Nat.div_le_div_right (Nat.mul_le_mul_left 8 ht))

/-- At the longest half-life the longest outage is 12 half-lives. -/
theorem decayFactor_pos {t : Nat} (ht : t ≤ 86400) : 0 < decayFactor (some t) 7200 := by
  rw [decayFactor_some]
  exact decayAfter_pos (by omega)

/-- The count of eighths of a half-life fits: 8 × 86,400 / 60. -/
theorem eighths_le {t h : Nat} (ht : t ≤ 86400) (hh : 60 ≤ h) : 8 * t / h ≤ 11520 :=
  calc 8 * t / h ≤ 8 * t / 60 := Nat.div_le_div_left hh (by decide)
    _ ≤ 11520 := by omega

/-! ### The estimate and T_res (R162) -/

theorem estimate_eq (ts ta f : Nat) : estimate ts ta f = ta + ((ts - ta) * f + 65535) / 65536 := by
  rw [estimate, ceilDiv, Nat.add_sub_assoc (by decide)]

/-- A factor of at most 65,536 scales the excess down, also when the division rounds up. -/
theorem scaledExcess_le (e : Nat) {f : Nat} (hf : f ≤ 65536) : (e * f + 65535) / 65536 ≤ e := by
  have scaled : e * f ≤ e * 65536 := Nat.mul_le_mul_left e hf
  omega

/-- At the full factor the division is exact. -/
theorem scaledExcess_full (e : Nat) : (e * 65536 + 65535) / 65536 = e := by
  omega

theorem scaledExcess_zero (e : Nat) : (e * 0 + 65535) / 65536 = 0 := by
  rw [Nat.mul_zero]

theorem excess_mul_le {ts f : Nat} (ta : Nat) (hts : ts ≤ 200) (hf : f ≤ 65536) : (ts - ta) * f ≤ 13107200 :=
  calc (ts - ta) * f ≤ 200 * 65536 := Nat.mul_le_mul (by omega) hf

/-- The estimate lies between the ambient and the saved temperature. -/
theorem estimate_bounds (ts ta : Nat) {f : Nat} (hf : f ≤ 65536) : ta ≤ estimate ts ta f ∧ estimate ts ta f ≤ max ta ts := by
  have scaled := scaledExcess_le (ts - ta) hf
  rw [estimate_eq]
  omega

theorem residual_none (est : Nat) : residual est none = est := Nat.max_zero est

theorem residual_some (est m : Nat) : residual est (some m) = max est m := rfl

/-! ### What every outcome keeps (R164, R171) -/

/-- The outcome retires the record or is the commit of some fast fields by R171. -/
def PlanInputs.Settles (i : PlanInputs) (o : PlanOutcome) : Prop := o = .retire ∨ ∃ g, o = i.committed g

section
variable (i : PlanInputs) (f : Fast)

theorem PlanInputs.settles_committed : i.Settles (i.committed f) := .inr ⟨f, rfl⟩

theorem PlanInputs.settles_of_doorJudged {o : PlanOutcome} (h : i.doorJudged f = some o) : i.Settles o := by
  unfold PlanInputs.doorJudged at h
  split at h
  · cases h
  · split at h
    · exact .inl (Option.some.inj h).symm
    · exact .inr ⟨_, (Option.some.inj h).symm⟩

theorem PlanInputs.settles_planHeat : i.Settles (i.planHeat f) := by
  simp only [PlanInputs.planHeat]
  split_ifs <;> exact i.settles_committed _

theorem PlanInputs.settles_planCool : i.Settles (i.planCool f) := by
  simp only [PlanInputs.planCool]
  split
  · next judged => exact i.settles_of_doorJudged _ judged
  · exact i.settles_committed _

theorem PlanInputs.settles_planDone : i.Settles (i.planDone f) := by
  unfold PlanInputs.planDone
  split
  · next judged => exact i.settles_of_doorJudged _ judged
  · exact i.settles_committed _

theorem PlanInputs.settles_planCrease : i.Settles (i.planCrease f) := by
  unfold PlanInputs.planCrease
  split
  case h_1 => exact i.settles_planDone _
  case h_2 =>
    dsimp only
    split
    · exact i.settles_planDone _
    · split
      · next judged => exact i.settles_of_doorJudged _ judged
      · split
        · exact i.settles_committed _
        · split_ifs <;> exact i.settles_committed _

/-- Whichever rule of R164 decides, the record is retired or committed. -/
theorem PlanInputs.settles_outcome : i.Settles i.outcome := by
  simp only [PlanInputs.outcome]
  split_ifs with damaged held resumed hot
  · exact i.settles_committed _
  · exact i.settles_committed _
  · exact i.settles_committed _
  · exact i.settles_committed _
  · split
    · exact i.settles_planHeat _
    · exact i.settles_planHeat _
    · exact i.settles_planCool _
    · exact i.settles_planCrease _
    · exact i.settles_planDone _
    · exact i.settles_committed _

end

/-- A commit keeps T_res as the load temperature. -/
theorem PlanInputs.temp_of_outcome_commit {i : PlanInputs} {f : Fast} {a b : Nat} (h : i.outcome = .commit f a b) :
    f.temp = i.res := by
  rcases i.settles_outcome with retired | ⟨g, committed⟩
  · exact absurd (h.symm.trans retired) PlanOutcome.noConfusion
  · obtain ⟨rfl, -, -⟩ := PlanOutcome.commit.inj (h.symm.trans committed)
    rfl

/-- Settles O53: the factor is `decayAfter` of the eighths of a half-life, which never rises; the scaled excess is at
most the excess; and every outcome that commits does so through `PlanInputs.committed`. -/
theorem estimateIsTheDecayedExcess : Obligations.EstimateIsTheDecayedExcess := by
  unfold Obligations.EstimateIsTheDecayedExcess
  refine ⟨fun t h ht hlo _ => ?factor, fun k hk => decayTable_nearest hk, fun ts ta f m hf => ?estimate,
    fun i => ⟨rfl, fun f a b => PlanInputs.temp_of_outcome_commit⟩⟩
  case factor =>
    exact ⟨rfl, eighths_le ht hlo, fun _ => decayFactor_some t h, fun cut => (decayFactor_some t h).trans (decayAfter_eq_zero cut),
      Nat.div_mul_le_self _ _, fun t' le => decayFactor_antitone le h, rfl, decayFactor_pos ht⟩
  case estimate =>
    obtain ⟨above, below⟩ := estimate_bounds ts ta hf
    exact ⟨estimate_eq ts ta f, scaledExcess_le _ hf, fun full => by subst full; exact scaledExcess_full _,
      fun gone => by subst gone; exact scaledExcess_zero _, fun hts => excess_mul_le ta hts hf, above, below, residual_none _, residual_some _ m⟩

end Sys2Proof.Machine
end
section
/-! SUPPORT. How a step is taken apart: a command by what it does while it is taken, a millisecond by its timers. Every
invariant of the part is then a fact about each of these (log entries 5 and 6). -/

namespace Sys2Proof.Machine

/-! ### A step by its parts -/

/-- What holds of the state a command is taken in, and of the state its work ends in, holds after the command. -/
theorem powered_keeps {P : State → Prop} {s t : State} {body : Work → Work} (h : P s) (hb : P (body (Work.begin s)).finish)
    (e : powered s body = .next t) : P t := by
  unfold powered at e
  obtain rfl := Host.Outcome.next.inj e
  split
  · exact hb
  · exact h

/-- A request keeps what its owner, the port's own answer and a dropped frame keep (R179, R181). -/
theorem requestFrame_keeps {P : Work → Prop} {w : Work} {r : HostReq} {o : Work → Work} (hd : P w.shiftStatus.dropRequest)
    (ha : ∀ x, P ((w.shiftStatus.takeRequest r).respond x [])) (ho : P (o (w.shiftStatus.takeRequest r))) :
    P (w.requestFrame r o) := by
  unfold Work.requestFrame
  dsimp only
  split
  · exact hd
  · split
    · exact ha _
    · exact ho

/-- The end of an operation keeps what meeting the failed words, running to the end and `done` keep (R40). -/
theorem endWhere_keeps {P : Work → Prop} {w : Work} {found : Findings} {f : StoreOp → Bool} {done : Running → Work → Work}
    (h : P w) (hr : P (Work.runPlain accessLimit (w.meet found))) (hd : ∀ r w, P w → P (done r w)) : P (w.endWhere found f done) := by
  unfold Work.endWhere
  split
  · exact h
  · dsimp only
    split
    · split
      · exact hr
      · exact hd _ _ hr
    · exact hr

/-- What every timer keeps, a millisecond keeps. -/
theorem runTickers_keeps {P : State → Prop} (ts : List Ticker) (h : ∀ t ∈ ts, ∀ s, P s → P (t s).1) {s : State} (hs : P s) :
    P (runTickers ts s).1 := by
  have fold : ∀ (ts : List Ticker) (x : State × List Instr), (∀ t ∈ ts, ∀ s, P s → P (t s).1) → P x.1 →
      P (ts.foldl (fun x t => ((t x.1).1, x.2 ++ (t x.1).2)) x).1 := by
    intro ts
    induction ts with
    | nil => exact fun _ _ hx => hx
    | cons t ts ih =>
      intro x ht hx
      exact ih _ (fun u hu => ht u (List.mem_cons_of_mem _ hu)) (ht t List.mem_cons_self _ hx)
  exact fold ts (s, []) h hs

/-- The timers of a part, with core supply or without. -/
theorem State.mem_tickers {s : State} {t : Ticker} (h : t ∈ s.tickers) :
    t ∈ [tickBackup, tickSettle, tickClock, tickStore, tickPatrol, tickExchange, tickRetries, tickPolls, tickOffline, tickSlots,
      tickSag, tickWindow] := by
  unfold State.tickers at h
  split at h
  · exact h
  · rw [List.mem_singleton.1 h]
    exact List.mem_cons_self

/-- **What every command and every timer keeps, every step keeps**, for a property in which the waiting commands have no
part. -/
theorem step_keeps {P : State → Prop} (hq : ∀ (s : State) (l : List Instr), P s → P { s with pending := l })
    (hc : ∀ (c : Instr) (s t : State), P s → exec c s = .next t → P t)
    (ht : ∀ t ∈ [tickBackup, tickSettle, tickClock, tickStore, tickPatrol, tickExchange, tickRetries, tickPolls, tickOffline,
      tickSlots, tickSag, tickWindow], ∀ s, P s → P (t s).1)
    {s t : State} (h : P s) (e : step s = .next t) : P t := by
  unfold step at e
  split at e
  · exact hc _ _ _ (hq _ _ h) e
  · obtain rfl := Host.Outcome.next.inj e
    exact hq _ _ (runTickers_keeps _ (fun t m => ht t (State.mem_tickers m)) h)

end Sys2Proof.Machine
end
section
/-! SUPPORT. What a step can do, in the terms that the part's invariants are judged by: every command and every timer is a
chain of a few kinds of change (R112 to R132, R139, log entry 1). -/

namespace Sys2Proof.Machine

/-! ### The kinds of change -/

/-- Reservations and places in the wait lists are kept or lost (R129, R130). -/
structure HeatUnit.Less (a b : HeatUnit) : Prop where
  reserved : ∀ p : Pocket, b.reserved[p] = a.reserved[p] ∨ b.reserved[p] = none
  waitA : b.waitA ⊆ a.waitA
  waitB : b.waitB ⊆ a.waitB
  waitC : b.waitC ⊆ a.waitC

/-- Slots are kept or released, and no pocket that keeps its slot joins the start request set (R112, R121). -/
structure Arbiter.Less (a b : Arbiter) : Prop where
  holders : b.holders.Sublist a.holders
  requests : ∀ p ∈ b.holders, a.requests[p] = none → b.requests[p] = none

/-- One change of the part. -/
inductive Change : State → State → Prop where
  /-- Nothing is reserved, nothing joins a wait list and no slot is granted. -/
  | ordinary {s t : State} (part : t.part = s.part) (loaded : t.ctl.loaded = s.ctl.loaded)
      (store : s.store.wf = true → t.store.wf = true) (heat : s.heat.Less t.heat) (arb : s.arb.Less t.arb) : Change s t
  /-- A reservation is made that the budget allows of the pocket's phase, or of the phase in whose list it waits (R128, R131). -/
  | reserve {s t : State} (p : Pocket) (active : s.part = .active) (part : t.part = s.part) (loaded : t.ctl.loaded = s.ctl.loaded)
      (store : t.store = s.store) (arb : t.arb = s.arb) (heat : t.heat = { s.heat with reserved := upd s.heat.reserved p (some (s.draw p)) })
      (fits : s.draw p = 0 ∨ ∃ x, (x = s.phaseOf p ∨ p ∈ s.waitList x) ∧ s.reservedSum x + s.draw p ≤ s.budget x) : Change s t
  /-- A pocket joins the wait list of its supply phase (R127). -/
  | wait {s t : State} (p : Pocket) (active : s.part = .active) (part : t.part = s.part) (loaded : t.ctl.loaded = s.ctl.loaded)
      (store : t.store = s.store) (arb : t.arb = s.arb) (reserved : t.heat.reserved = s.heat.reserved)
      (lists : ∀ x, t.waitList x = if x = s.phaseOf p then s.waitList x ++ [p] else s.waitList x) : Change s t
  /-- A pocket's request is granted a free slot (R120). -/
  | grant {s t : State} (p : Pocket) (active : s.part = .active) (part : t.part = s.part) (loaded : t.ctl.loaded = s.ctl.loaded)
      (store : t.store = s.store) (heat : t.heat = s.heat) (room : s.arb.slots.length < s.setting 7) (asked : s.request p ≠ none)
      (holders : t.arb.holders = s.arb.holders ++ [p]) (requests : t.arb.requests = upd s.arb.requests p none) : Change s t
  /-- Outside ACTIVE the part state, the settings and the request set may change, but no reservation and no slot (R125, R132). -/
  | outside {s t : State} (outside : s.part ≠ .active) (store : s.store.wf = true → t.store.wf = true) (heat : t.heat = s.heat)
      (slots : t.arb.slots = s.arb.slots) : Change s t
  /-- The heat budget unit and the slots are cleared (R125, R132, R154, R192, R196). -/
  | cleared {s t : State} (store : s.store.wf = true → t.store.wf = true) (heat : t.heat = HeatUnit.reset) (slots : t.arb.slots = []) :
      Change s t

/-- A chain of changes. -/
def Changes : State → State → Prop := Relation.ReflTransGen Change

/-- What every change keeps, a chain of changes keeps. -/
theorem Changes.keeps {P : State → Prop} (hP : ∀ s t, Change s t → P s → P t) {s t : State} (h : Changes s t) (hs : P s) : P t := by
  induction h with
  | refl => exact hs
  | tail _ c ih => exact hP _ _ c ih

/-! ### Nothing but reservations, places and slots lost -/

theorem HeatUnit.Less.rfl' (a : HeatUnit) : a.Less a := ⟨fun _ => .inl rfl, List.Subset.refl _, List.Subset.refl _, List.Subset.refl _⟩

theorem HeatUnit.less_of_eq {a b : HeatUnit} (h : b = a) : a.Less b := h ▸ HeatUnit.Less.rfl' a

theorem Arbiter.Less.rfl' (a : Arbiter) : a.Less a := ⟨List.Sublist.refl _, fun _ _ h => h⟩

theorem Arbiter.less_of_eq {a b : Arbiter} (h : b = a) : a.Less b := h ▸ Arbiter.Less.rfl' a

section
variable {s t u : State}

theorem Changes.ordinary (h : Changes s t) (part : u.part = t.part) (loaded : u.ctl.loaded = t.ctl.loaded)
    (store : t.store.wf = true → u.store.wf = true) (heat : t.heat.Less u.heat) (arb : t.arb.Less u.arb) : Changes s u :=
  h.tail (.ordinary part loaded store heat arb)

/-- A change that leaves the heat budget unit and the arbiter. -/
theorem Changes.same (h : Changes s t) (heat : u.heat = t.heat) (arb : u.arb = t.arb) (part : u.part = t.part)
    (loaded : u.ctl.loaded = t.ctl.loaded) (store : t.store.wf = true → u.store.wf = true) : Changes s u :=
  h.ordinary part loaded store (HeatUnit.less_of_eq heat) (Arbiter.less_of_eq arb)

/-- A change that leaves the store too. -/
theorem Changes.same_store (h : Changes s t) (heat : u.heat = t.heat) (arb : u.arb = t.arb) (part : u.part = t.part)
    (loaded : u.ctl.loaded = t.ctl.loaded) (store : u.store = t.store) : Changes s u :=
  h.same heat arb part loaded fun hw => store ▸ hw

end

/-! ### Marks, answers, contexts and the operation queue -/

section
variable {s : State} {w : Work} (h : Changes s w.toState)
include h

@[simp] theorem Changes.mark (k : PocketEvent) (p : Pocket) : Changes s (w.mark k p).toState := h.same_store rfl rfl rfl rfl rfl
@[simp] theorem Changes.markPart (k : PartEvent) : Changes s (w.markPart k).toState := h.same_store rfl rfl rfl rfl rfl
@[simp] theorem Changes.respond (r : Result) (b : List Byte) : Changes s (w.respond r b).toState := h.same_store rfl rfl rfl rfl rfl
@[simp] theorem Changes.setCtx (p : Pocket) (c : Option Context) : Changes s (w.setCtx p c).toState :=
  h.same_store rfl rfl rfl rfl rfl
@[simp] theorem Changes.onCtx (p : Pocket) (f : Context → Context) : Changes s (w.onCtx p f).toState := by
  unfold Work.onCtx; split <;> simp [h]
@[simp] theorem Changes.onFast (p : Pocket) (f : Fast → Fast) : Changes s (w.onFast p f).toState := Changes.onCtx h p _
@[simp] theorem Changes.recordFault (p : Pocket) (x : FaultCause) : Changes s (w.recordFault p x).toState := by
  unfold Work.recordFault; split <;> simp [h]
@[simp] theorem Changes.enqueue (op : StoreOp) : Changes s (w.enqueue op).toState := h.same_store rfl rfl rfl rfl rfl
@[simp] theorem Changes.demandCheckpoint (p : Pocket) : Changes s (w.demandCheckpoint p).toState := by
  unfold Work.demandCheckpoint; split <;> simp [h]
@[simp] theorem Changes.demandRead (p : Pocket) (why : ReadPurpose) : Changes s (w.demandRead p why).toState := by
  unfold Work.demandRead
  split
  · exact h.same_store rfl rfl rfl rfl rfl
  · simp [h]
@[simp] theorem Changes.quarantineFrame (f : Nat) : Changes s (w.quarantineFrame f).toState := h.same_store rfl rfl rfl rfl rfl
@[simp] theorem Changes.freeFrame (f : Nat) : Changes s (w.freeFrame f).toState := by
  have freed : Changes s ({ w with ctl := { w.ctl with free := w.ctl.free ++ [f] } } : Work).toState := h.same_store rfl rfl rfl rfl rfl
  unfold Work.freeFrame
  dsimp only
  repeat' split
  · exact Changes.enqueue freed _
  all_goals exact freed

/-! ### The link -/

theorem Changes.of_offQueue {w' : Work} (e : w'.offQueue = w.offQueue) : Changes s w'.toState :=
  h.same_store (congrArg (fun v : Work => v.heat) e :) (congrArg (fun v : Work => v.arb) e :) (congrArg (fun v : Work => v.part) e :)
    (congrArg (fun v : Work => v.ctl.loaded) e :) (congrArg (fun v : Work => v.store) e :)

@[simp] theorem Changes.setQueue (q : List Entry) : Changes s (w.setQueue q).toState := Changes.of_offQueue h rfl
@[simp] theorem Changes.onLink (p : Pocket) (f : PocketLink → PocketLink) : Changes s (w.onLink p f).toState :=
  Changes.of_offQueue h rfl
@[simp] theorem Changes.believeMotor (p : Pocket) (b : Bool) : Changes s (w.believeMotor p b).toState := Changes.onLink h p _
@[simp] theorem Changes.believeHeat (p : Pocket) (x : Option Nat) : Changes s (w.believeHeat p x).toState := Changes.onLink h p _
@[simp] theorem Changes.believeAllSafe : Changes s w.believeAllSafe.toState := Changes.of_offQueue h rfl
@[simp] theorem Changes.sendEntry (g : Entry → Bool) (e : Entry) : Changes s (w.sendEntry g e).toState :=
  Changes.of_offQueue h rfl
@[simp] theorem Changes.resend : Changes s w.resend.toState := Changes.of_offQueue h rfl
@[simp] theorem Changes.waitRetry (n : Nat) : Changes s (w.waitRetry n).toState := Changes.of_offQueue h rfl
@[simp] theorem Changes.removeEntries (g : Entry → Bool) : Changes s (w.removeEntries g).toState :=
  Changes.of_offQueue h (w.removeEntries_offQueue g)
@[simp] theorem Changes.postSafe (p : Pocket) : Changes s (w.postSafe p).toState := Changes.of_offQueue h (w.postSafe_offQueue p)
@[simp] theorem Changes.sendBroadcast : Changes s w.sendBroadcast.toState := Changes.of_offQueue h w.sendBroadcast_offQueue
@[simp] theorem Changes.broadcastSafe : Changes s w.broadcastSafe.toState := Changes.of_offQueue h w.broadcastSafe_offQueue
@[simp] theorem Changes.endExchange : Changes s w.endExchange.toState :=
  (Changes.removeEntries h _).same_store rfl rfl rfl rfl rfl
@[simp] theorem Changes.join (p : Pocket) (k : CommandKind) : Changes s (w.join p k).toState := by
  unfold Work.join; split <;> simp [h]
@[simp] theorem Changes.postRun (p : Pocket) : Changes s (w.postRun p).toState := by unfold Work.postRun; split <;> simp [h]
@[simp] theorem Changes.postPoll (p : Pocket) : Changes s (w.postPoll p).toState := by unfold Work.postPoll; split <;> simp [h]
@[simp] theorem Changes.postClearDoor (p : Pocket) : Changes s (w.postClearDoor p).toState := by
  unfold Work.postClearDoor; split <;> simp [h]
@[simp] theorem Changes.postProbe (p : Pocket) : Changes s (w.postProbe p).toState := by unfold Work.postProbe; split <;> simp [h]
@[simp] theorem Changes.postStop (p : Pocket) : Changes s (w.postStop p).toState := by
  unfold Work.postStop
  split
  · exact ((h.join _ _).removeEntries _).onLink _ _
  · exact h
@[simp] theorem Changes.postHeatOn (p : Pocket) : Changes s (w.postHeatOn p).toState := by
  unfold Work.postHeatOn
  split
  · exact ((h.join _ _).setQueue _).demandRead _ _
  · exact h
@[simp] theorem Changes.setLinkState (p : Pocket) (x : LinkState) (c : Option FaultCause) :
    Changes s (w.setLinkState p x c).toState := by unfold Work.setLinkState; split <;> simp [h]
@[simp] theorem Changes.endAuthority (p : Pocket) : Changes s (w.endAuthority p).toState := by
  unfold Work.endAuthority; split <;> simp [h]

/-! ### Reservations and places lost -/

@[simp] theorem Changes.releaseReservation (p : Pocket) : Changes s (w.releaseReservation p).toState := by
  unfold Work.releaseReservation
  split
  · refine h.ordinary rfl rfl id ⟨fun q => ?_, List.Subset.refl _, List.Subset.refl _, List.Subset.refl _⟩ (Arbiter.Less.rfl' _)
    by_cases e : q = p
    · subst e; exact .inr (upd_self _ _ _)
    · exact .inl (upd_other _ _ e)
  · exact h

theorem Changes.setWaitList {x : SupplyPhase} {l : List Pocket} (hl : l ⊆ w.waitList x) : Changes s (w.setWaitList x l).toState := by
  cases x with
  | a => exact h.ordinary rfl rfl id ⟨fun _ => .inl rfl, hl, List.Subset.refl _, List.Subset.refl _⟩ (Arbiter.Less.rfl' _)
  | b => exact h.ordinary rfl rfl id ⟨fun _ => .inl rfl, List.Subset.refl _, hl, List.Subset.refl _⟩ (Arbiter.Less.rfl' _)
  | c => exact h.ordinary rfl rfl id ⟨fun _ => .inl rfl, List.Subset.refl _, List.Subset.refl _, hl⟩ (Arbiter.Less.rfl' _)

@[simp] theorem Changes.leaveWaitList (p : Pocket) : Changes s (w.leaveWaitList p).toState := by
  unfold Work.leaveWaitList
  dsimp only
  split
  · exact Changes.setWaitList h (List.filter_subset_self _)
  · exact h

@[simp] theorem Changes.releaseHeat (p : Pocket) : Changes s (w.releaseHeat p).toState := by simp [Work.releaseHeat, h]

@[simp] theorem Changes.postHeatOff (p : Pocket) : Changes s (w.postHeatOff p).toState := by
  unfold Work.postHeatOff
  split
  · exact (((h.join _ _).removeEntries _).onLink _ _).releaseReservation _
  · exact h

/-! ### Requests and slots -/

theorem Changes.setRequest_none (p : Pocket) : Changes s (w.setRequest p none).toState := by
  refine h.ordinary rfl rfl id (HeatUnit.Less.rfl' _) ⟨List.Sublist.refl _, fun q _ hq => ?_⟩
  by_cases e : q = p
  · subst e; exact upd_self _ _ _
  · exact (upd_other _ _ e).trans hq

theorem Changes.setRequest {p : Pocket} (hp : w.slotOf p = none) (x : Option Nat) : Changes s (w.setRequest p x).toState := by
  refine h.ordinary rfl rfl id (HeatUnit.Less.rfl' _) ⟨List.Sublist.refl _, fun q hq hn => ?_⟩
  have away : q ≠ p := by
    rintro rfl
    obtain ⟨y, hy, rfl⟩ := List.mem_map.1 hq
    have := List.find?_eq_none.1 hp y hy
    simp at this
  exact (upd_other _ _ away).trans hn

theorem Changes.onSlot (p : Pocket) {f : Slot → Slot} (hf : ∀ x, (f x).pocket = x.pocket) : Changes s (w.onSlot p f).toState := by
  have same : (w.onSlot p f).arb.holders = w.arb.holders := by
    show ((w.arb.slots.map _).map _) = w.arb.slots.map _
    rw [List.map_map]
    refine List.map_congr_left fun x _ => ?_
    show (if x.pocket = p then f x else x).pocket = x.pocket
    split
    · exact hf x
    · rfl
  exact h.ordinary rfl rfl id (HeatUnit.Less.rfl' _) ⟨by rw [same], fun _ _ hn => hn⟩

@[simp] theorem Changes.removeRequest (p : Pocket) : Changes s (w.removeRequest p).toState :=
  Changes.onSlot (Changes.setRequest_none h p) p fun _ => rfl

@[simp] theorem Changes.releaseSlot (p : Pocket) : Changes s (w.releaseSlot p).toState :=
  h.ordinary rfl rfl id (HeatUnit.Less.rfl' _) ⟨List.Sublist.map _ List.filter_sublist, fun _ _ hn => hn⟩

@[simp] theorem Changes.makeRequest (p : Pocket) (n : Nat) : Changes s (w.makeRequest p n).toState := by
  unfold Work.makeRequest
  split
  · exact Changes.onSlot h p fun _ => rfl
  · rename_i hp
    split
    · split
      · exact Changes.setRequest h hp _
      · exact h
    · exact Changes.setRequest h hp _

@[simp] theorem Changes.startWindow (p : Pocket) : Changes s (w.startWindow p).toState :=
  Changes.onSlot h p fun x => by split <;> rfl

@[simp] theorem Changes.doorRefusesRun (p : Pocket) : Changes s (w.doorRefusesRun p).toState :=
  Changes.onSlot (Changes.endAuthority h p) p fun x => by split <;> rfl

/-! ### Convergence -/

@[simp] theorem Changes.convergeMotor (p : Pocket) : Changes s (w.convergeMotor p).toState := by
  unfold Work.convergeMotor; repeat' split
  all_goals simp [h]
@[simp] theorem Changes.convergeLevel (p : Pocket) : Changes s (w.convergeLevel p).toState := by
  unfold Work.convergeLevel; repeat' split
  all_goals simp [h]
@[simp] theorem Changes.convergeHeat (p : Pocket) : Changes s (w.convergeHeat p).toState := by
  unfold Work.convergeHeat; repeat' split
  · simp [h]
  · exact Changes.convergeLevel (Changes.onLink h p _) p
  · exact Changes.convergeLevel h p
  · exact h
@[simp] theorem Changes.convergeOne (p : Pocket) : Changes s (w.convergeOne p).toState := by
  unfold Work.convergeOne; split <;> simp [h]

end

/-- A fold is a chain of changes when every step is. -/
theorem foldl_changes {α : Type} (f : Work → α → Work) (hf : ∀ s w a, Changes s w.toState → Changes s (f w a).toState) :
    ∀ (l : List α) {s : State} {w : Work}, Changes s w.toState → Changes s (l.foldl f w).toState
  | [], _, _, h => h
  | a :: l, _, _, h => foldl_changes f hf l (hf _ _ a h)

section
variable {s : State} {w : Work} (h : Changes s w.toState)
include h

@[simp] theorem Changes.admitProbes : Changes s w.admitProbes.toState := by
  unfold Work.admitProbes
  split
  · exact foldl_changes _ (fun s w p h => by split <;> simp [h]) _ h
  · exact h
@[simp] theorem Changes.convergeWaiting (m : Mask) (f : Pocket → Bool) : Changes s (w.convergeWaiting m f).toState :=
  foldl_changes _ (fun s w p h => by split <;> simp [h]) _ h
@[simp] theorem Changes.admitHeld : Changes s w.admitHeld.toState := by
  unfold Work.admitHeld
  split
  · exact Changes.admitProbes (Changes.convergeWaiting (w := { w with room := none }) h _ _)
  · exact h
@[simp] theorem Changes.admitHeldBefore (p : Pocket) : Changes s (w.admitHeldBefore p).toState := by
  unfold Work.admitHeldBefore
  split
  · split
    · exact Changes.convergeWaiting (w := { w with room := none }) h _ _
    · simp [h]
  · exact h
@[simp] theorem Changes.converge (p : Pocket) : Changes s (w.converge p).toState := by simp [Work.converge, h]
@[simp] theorem Changes.rederive (p : Pocket) : Changes s (w.rederive p).toState := by
  unfold Work.rederive; dsimp only; split <;> simp [h]

end

end Sys2Proof.Machine
end
section
/-! SUPPORT. The shared operations of the link, the arbiter, the cycle engine and PLAN as chains of changes. -/

namespace Sys2Proof.Machine

/-! ### Reservations, wait lists and grants made (R119, R120, R127, R128, R131) -/

/-- The winner of a grant has a request (R120). -/
theorem State.request_of_winner {s : State} {p : Pocket} {n : Nat} (h : s.winner = some (p, n)) : s.request p = some n := by
  have best : ∀ x, s.winner = some x → s.request x.1 = some x.2 := by
    unfold State.winner
    refine List.foldlRecOn (motive := fun best : Option (Pocket × Nat) => ∀ x, best = some x → s.request x.1 = some x.2) allPockets _ (fun _ hx => nomatch hx)
      fun best ih q _ x hx => ?_
    split at hx
    · split at hx
      · cases hx; assumption
      · exact ih x hx
    · split at hx
      · cases hx; assumption
      · cases hx
    · exact ih x hx
  exact best _ h

section
variable {s : State} {w w' : Work} (h : Changes s w.toState)
include h

/-- A change made where `c` holds. -/
theorem Changes.cond {c : Prop} [Decidable c] (f : Changes s w.toState → Changes s w'.toState) :
    Changes s (if c then w' else w).toState := by
  split
  · exact f h
  · exact h

theorem Changes.reserve (active : w.part = .active) {p : Pocket}
    (fits : w.draw p = 0 ∨ ∃ x, (x = w.phaseOf p ∨ p ∈ w.waitList x) ∧ w.reservedSum x + w.draw p ≤ w.budget x) :
    Changes s (w.reserve p).toState :=
  Changes.converge (w := { w with heat := { w.heat with reserved := upd w.heat.reserved p (some (w.draw p)) } })
    (h.tail (.reserve p active rfl rfl rfl rfl rfl fits)) p

/-- The head of a wait list gets its reservation (R131). -/
theorem Changes.serveHead (active : w.part = .active) {x : SupplyPhase} {p : Pocket} {r : List Pocket} (hl : w.waitList x = p :: r)
    (fits : w.reservedSum x + w.draw p ≤ w.budget x) : Changes s ((w.setWaitList x r).reserve p).toState := by
  have reserved : Changes s ({ w with heat := { w.heat with reserved := upd w.heat.reserved p (some (w.draw p)) } } : Work).toState :=
    h.tail (.reserve p active rfl rfl rfl rfl rfl (.inr ⟨x, .inr (by rw [hl]; exact List.mem_cons_self), fits⟩))
  have less : Changes s (Work.setWaitList { w with heat := { w.heat with reserved := upd w.heat.reserved p (some (w.draw p)) } } x r).toState := by
    refine reserved.setWaitList ?_
    have same : State.waitList { w with heat := { w.heat with reserved := upd w.heat.reserved p (some (w.draw p)) } } x = p :: r := by
      rw [← hl]; cases x <;> rfl
    exact same ▸ List.subset_cons_self p r
  cases x <;> exact less.converge p

omit h in
theorem Work.servePhase_changes (x : SupplyPhase) : ∀ (n : Nat) {w : Work}, Changes s w.toState → w.part = .active →
    Changes s (Work.servePhase x n w).toState
  | 0, _, h, _ => h
  | n + 1, w, h, ha => by
    unfold Work.servePhase
    split
    · rename_i p r hl
      split
      · rename_i fits
        refine Work.servePhase_changes x n (h.serveHead ha hl fits) ?_
        have kept : ((w.setWaitList x r).reserve p).offLink = w.offLink := (Work.reserve_offLink _ _).trans (Work.setWaitList_offLink w x r)
        exact (congrArg State.part kept :).trans ha
      · exact h
    · exact h

omit h in
theorem Work.servePhase_part (x : SupplyPhase) (n : Nat) (w : Work) : (Work.servePhase x n w).part = w.part :=
  (congrArg State.part (Work.servePhase_offLink x n w) :)

theorem Changes.serveLists : Changes s w.serveLists.toState := by
  unfold Work.serveLists
  split
  · exact h
  · rename_i hn
    obtain ⟨-, ha⟩ := not_or.1 hn
    have ha : w.part = .active := not_not.1 ha
    refine Work.servePhase_changes .c 32 (Work.servePhase_changes .b 32 (Work.servePhase_changes .a 32 h ha) ?_) ?_ <;>
      simp only [Work.servePhase_part, ha]

theorem Changes.grantTo {p : Pocket} {n : Nat} (may : w.mayGrant = true) (asked : w.request p = some n) :
    Changes s (w.grantTo p n).toState := by
  obtain ⟨⟨⟨room, -⟩, -⟩, active⟩ : ((w.arb.slots.length < w.setting 7 ∧ w.gapMet = true) ∧ w.sag.active = false) ∧ w.part = .active := by
    simpa [State.mayGrant] using may
  have granted := h.tail (.grant (t := { w with arb := { (w.setRequest p none).arb with
      slots := w.arb.slots ++ [{ pocket := p, stage := .awaitAck, level := n, timerMs := w.setting 10 * 100, carried := none, doorRefused := false }]
      sinceGrant := some 0 } }) p active rfl rfl rfl rfl room (by rw [asked]; exact Option.some_ne_none n) (by simp [Arbiter.holders]) rfl)
  unfold Work.grantTo
  exact ((Changes.onCtx (w := { w with arb := _ }) granted p _).onLink p _).converge p

omit h in
theorem Work.evaluateGrants_changes : ∀ (n : Nat) {w : Work}, Changes s w.toState → Changes s (Work.evaluateGrants n w).toState
  | 0, _, h => h
  | n + 1, w, h => by
    unfold Work.evaluateGrants
    split
    · rename_i may
      split
      · rename_i hw
        exact Work.evaluateGrants_changes n (h.grantTo may (State.request_of_winner hw))
      · exact h
    · exact h

theorem Changes.settleOnce : Changes s w.settleOnce.toState := by
  have converged : Changes s (allPockets.foldl (fun (v : Work) p => if w.admitHeld.drop || w.admitHeld.gone.has p then v.convergeOne p else v)
      w.admitHeld.debtFree).toState :=
    foldl_changes _ (fun s v p hv => hv.cond (·.convergeOne p)) _ (w := w.admitHeld.debtFree) h.admitHeld
  unfold Work.settleOnce
  exact ((converged.cond (·.admitProbes)).cond (·.serveLists)).cond (Work.evaluateGrants_changes 5)

omit h in
theorem Work.settle_changes : ∀ (n : Nat) {w : Work}, Changes s w.toState → Changes s (Work.settle n w).toState
  | 0, _, h => h
  | n + 1, w, h => by
    unfold Work.settle
    split
    · exact h
    · exact Work.settle_changes n h.settleOnce

/-- **The end of a command is a chain of changes.** -/
theorem Changes.finish : Changes s w.finish := Work.settle_changes 8 h

/-! ### The cycle engine (chapters 1 and 4) -/

theorem Changes.leaveCrease (p : Pocket) : Changes s (w.leaveCrease p).toState := by
  unfold Work.leaveCrease
  exact ((((h.onCtx _ _).cond (·.mark _ _)).cond (·.mark _ _)).removeRequest _).rederive _

theorem Changes.endCrease (p : Pocket) : Changes s (w.endCrease p).toState := ((h.leaveCrease p).mark _ _).demandCheckpoint _

theorem Changes.takeHold (p : Pocket) (x : HoldCause) : Changes s (w.takeHold p x).toState := by
  have held (f : Context → Context) {c : Prop} [Decidable c] : Changes s
      (((((if c then ((w.onCtx p f).mark .hold p).mark .resume p else (w.onCtx p f).mark .hold p).removeRequest p).releaseHeat p).rederive p)).toState :=
    (((((h.onCtx p f).mark _ _).cond (·.mark _ _)).removeRequest _).releaseHeat _).rederive _
  unfold Work.takeHold
  split
  · exact h
  · dsimp only
    split
    · exact h
    · split
      · exact (held _).endCrease _
      · exact (held _).demandCheckpoint _

theorem Changes.requestAfterHold (p : Pocket) (x : HoldCause) : Changes s (w.requestAfterHold p x).toState := by
  unfold Work.requestAfterHold
  dsimp only
  repeat' split
  all_goals simp [h]

theorem Changes.clearHold (p : Pocket) : Changes s (w.clearHold p).toState :=
  ((((h.onFast _ _).mark _ _).demandCheckpoint _).requestAfterHold _ _).rederive _

theorem Changes.heatExit (p : Pocket) : Changes s (w.heatExit p).toState := by
  unfold Work.heatExit
  exact (((((h.onCtx _ _).mark _ _).cond (·.mark _ _)).releaseHeat _).demandRead _ _ |>.demandCheckpoint _).rederive _

theorem Changes.coolExit (p : Pocket) : Changes s (w.coolExit p).toState :=
  (((((h.onFast _ _).mark _ _).removeRequest _).demandRead _ _).demandCheckpoint _).rederive _

theorem Changes.setUpCrease (p : Pocket) (x : Statics) : Changes s (w.setUpCrease p x).toState := by
  unfold Work.setUpCrease
  dsimp only
  split
  · exact h.onCtx _ _
  · exact (h.leaveCrease _).demandCheckpoint _

theorem Changes.fillRead (p : Pocket) (x : Statics) (why : ReadPurpose) : Changes s (w.fillRead p x why).toState := by
  unfold Work.fillRead
  split
  · exact h
  · split
    case h_1 =>
      split
      · dsimp only
        split
        · exact (((((h.onCtx _ _).onFast _ _).removeRequest _).setUpCrease _ _).demandCheckpoint _).rederive _
        · exact h.onCtx _ _
      · exact h
    case h_2 =>
      split
      · exact (h.setUpCrease _ _).rederive _
      · exact h
    case h_3 => exact ((h.onCtx _ _).setQueue _).rederive _

theorem Changes.dropContext (p : Pocket) : Changes s (w.dropContext p).toState := h.same_store rfl rfl rfl rfl rfl

theorem Changes.retireRecord (p : Pocket) (host : Bool) : Changes s (w.retireRecord p host).toState := by
  unfold Work.retireRecord
  split
  · exact h
  · exact ((((((h.dropContext _).mark _ _).removeRequest _).releaseHeat _).rederive _).removeEntries _).enqueue _

theorem Changes.doorOpened (p : Pocket) : Changes s (w.doorOpened p).toState := by
  unfold Work.doorOpened
  repeat' split
  · exact h
  · exact h
  · exact h.takeHold _ _
  · exact h.takeHold _ _
  · exact h.retireRecord _ _
  · exact h.takeHold _ _

theorem Changes.doorClosed (p : Pocket) : Changes s (w.doorClosed p).toState := by
  unfold Work.doorClosed
  exact h.cond (·.clearHold _)

theorem Changes.levelLost (p : Pocket) : Changes s (w.levelLost p).toState := (h.onCtx _ _).rederive _

theorem Changes.pin (p : Pocket) : Changes s (w.pin p).toState := by
  unfold Work.pin
  split
  · exact h
  · dsimp only
    split
    · exact h
    · split
      · exact (h.onCtx _ _).markPart _
      · exact ((h.onCtx _ _).markPart _).levelLost _

theorem Changes.coolFirstExit (p : Pocket) : Changes s (w.coolFirstExit p).toState := by
  unfold Work.coolFirstExit
  split
  · exact h
  · dsimp only
    repeat' split
    · exact ((h.onFast _ _).mark _ _).takeHold _ _
    · exact ((((((h.onFast _ _).mark _ _).onFast _ _).mark _ _).mark _ _).removeRequest _ |>.demandCheckpoint _).rederive _
    · exact ((h.onFast _ _).mark _ _).coolExit _

theorem Changes.heatRequest (active : w.part = .active) (p : Pocket) : Changes s (w.heatRequest p).toState := by
  unfold Work.heatRequest
  dsimp only
  split
  · exact h
  · split
    · rename_i none
      exact h.reserve active (.inl none)
    · split
      · exact (h.recordFault _ _).takeHold _ _
      · split
        · rename_i fits
          simp only [Bool.and_eq_true, decide_eq_true_eq] at fits
          exact h.reserve active (.inr ⟨_, .inl rfl, fits.2⟩)
        · refine h.tail (.wait p active ?_ ?_ ?_ ?_ ?_ fun x => ?_)
          case refine_6 => cases w.phaseOf p <;> cases x <;> rfl
          all_goals cases w.phaseOf p <;> rfl

/-! ### Changes of link state -/

theorem Changes.comeOnline (p : Pocket) : Changes s (w.comeOnline p).toState := by
  unfold Work.comeOnline
  dsimp only
  split
  · have online := (h.setLinkState p .online none).onLink p fun l => { l with offlineMs := none, probeOwed := false }
    split
    · split
      · exact Changes.clearHold (w := { (w.setLinkState p .online none).onLink p _ with grant := _ }) online _
      · exact Changes.rederive (w := { (w.setLinkState p .online none).onLink p _ with grant := _ }) online _
    · exact online
  · exact h

theorem Changes.clearLink (p : Pocket) : Changes s (w.clearLink p).toState := (h.removeEntries _).onLink _ _

theorem Changes.loseLink (p : Pocket) (x : FaultCause) : Changes s (w.loseLink p x).toState := by
  unfold Work.loseLink
  exact ((((h.releaseHeat _).removeRequest _).releaseSlot _).endAuthority _).cond fun h => (h.recordFault _ _).takeHold _ _

theorem Changes.goOffline (p : Pocket) : Changes s (w.goOffline p).toState := by
  unfold Work.goOffline
  split
  · exact h
  · exact (((h.setLinkState _ _ _).onLink _ _).clearLink _).loseLink _ _

theorem Changes.goFault (p : Pocket) (x : FaultCause) : Changes s (w.goFault p x).toState := by
  unfold Work.goFault
  split
  · exact h
  · exact ((((h.setLinkState _ _ _).onLink _ _).clearLink _).postSafe _).loseLink _ _

end

end Sys2Proof.Machine
end
section
/-! SUPPORT. What reading and writing words of the store leaves unchanged (R33, R37). -/

namespace Sys2Proof.Machine

/-- The state without what reading and writing words changes: the store, the events, the map mirror, the map faults, the error
latch, the pools and the operation queue with the operation in progress. -/
def State.offWords (s : State) : State :=
  { s with
    store := Store.unformatted, events := EventSet.empty
    ctl := { s.ctl with free := [], quarantine := 0, mirror := StoreCtl.reset.mirror, mapFault := 0, queue := [], current := none,
                        latch := ErrorLatch.cleared, correctable := 0 } }

theorem foldl_offWords {α : Type} (f : Work → α → Work) (h : ∀ w a, (f w a).offWords = w.offWords) (l : List α) (w : Work) :
    (l.foldl f w).offWords = w.offWords := foldl_view State.offWords f h l w

@[simp] theorem Work.mark_offWords (w : Work) (k : PocketEvent) (p : Pocket) : (w.mark k p).offWords = w.offWords := rfl
@[simp] theorem Work.markPart_offWords (w : Work) (k : PartEvent) : (w.markPart k).offWords = w.offWords := rfl
@[simp] theorem Work.countCorrectable_offWords (w : Work) : w.countCorrectable.offWords = w.offWords := rfl
@[simp] theorem Work.wrote_offWords (w : Work) (n : Nat) : (w.wrote n).offWords = w.offWords := rfl
@[simp] theorem Work.fail_offWords (w : Work) (xs : List (Nat × Flaw)) : (w.fail xs).offWords = w.offWords := rfl
@[simp] theorem Work.failAfterWrite_offWords (w : Work) (n : Nat) : (w.failAfterWrite n).offWords = w.offWords := rfl
@[simp] theorem Work.meet_offWords (w : Work) (f : Findings) : (w.meet f).offWords = w.offWords := rfl
@[simp] theorem Work.writeHeader_offWords (w : Work) (f : Nat) (x : Header) : (w.writeHeader f x).offWords = w.offWords := rfl
@[simp] theorem Work.writeFrameWord_offWords (w : Work) (f k : Nat) (x : Frame) : (w.writeFrameWord f k x).offWords = w.offWords := rfl
@[simp] theorem Work.writeSettingsWord_offWords (w : Work) (x : Settings) (k : Nat) : (w.writeSettingsWord x k).offWords = w.offWords := rfl
@[simp] theorem Work.writeMark_offWords (w : Work) (m : OutageMark) : (w.writeMark m).offWords = w.offWords := rfl
@[simp] theorem Work.writeFormat_offWords (w : Work) (f : FormatWord) : (w.writeFormat f).offWords = w.offWords := rfl
@[simp] theorem Work.enqueue_offWords (w : Work) (op : StoreOp) : (w.enqueue op).offWords = w.offWords := rfl
@[simp] theorem Work.quarantineFrame_offWords (w : Work) (f : Nat) : (w.quarantineFrame f).offWords = w.offWords := rfl
@[simp] theorem Work.withdraw_offWords (w : Work) (f : Nat) : (w.withdraw f).offWords = w.offWords := rfl
@[simp] theorem Work.onRun_offWords (w : Work) (f : Running → Running) : (w.onRun f).offWords = w.offWords := rfl

@[simp] theorem Work.offer_offWords (w : Work) (n : Nat) (x : Flaw) (src : LatchSource) : (w.offer n x src).offWords = w.offWords := by
  unfold Work.offer; dsimp only; split <;> rfl

@[simp] theorem Work.readWord_offWords (w : Work) (n : Nat) (src : LatchSource) (b : Bool) : (w.readWord n src b).offWords = w.offWords := by
  unfold Work.readWord
  split
  · rfl
  · dsimp only; split <;> simp
  · simp

@[simp] theorem Work.writeMap_offWords (w : Work) (p : Pocket) (e : MapEntry) : (w.writeMap p e).offWords = w.offWords := by
  unfold Work.writeMap
  dsimp only
  split
  · rw [Work.readWord_offWords]; rfl
  · exact Work.readWord_offWords _ _ _ _

@[simp] theorem Work.endMapFault_offWords (w : Work) (p : Pocket) : (w.endMapFault p).offWords = w.offWords := by
  unfold Work.endMapFault; split <;> rfl

@[simp] theorem Work.freeFrame_offWords (w : Work) (f : Nat) : (w.freeFrame f).offWords = w.offWords := by
  unfold Work.freeFrame
  dsimp only
  repeat' split
  all_goals rfl

@[simp] theorem Work.readWholeFrame_offWords (w : Work) (f : Nat) (src : LatchSource) (b : Bool) :
    (w.readWholeFrame f src b).offWords = w.offWords := foldl_offWords _ (fun _ _ => Work.readWord_offWords _ _ _ _) _ w

/-! ### The scan of the map and the frames (R51, R52) -/

@[simp] theorem Work.scanMapWord_offWords (w : Work) (p : Pocket) : (w.scanMapWord p).offWords = w.offWords := by
  have mirrored (v : Work) (m : Vector MapEntry 32) : State.offWords { v with ctl := { v.ctl with mirror := m } } = v.offWords := rfl
  unfold Work.scanMapWord
  dsimp only
  repeat' split
  all_goals simp [mirrored]

@[simp] theorem Work.scanFrame_offWords (w : Work) (b : Bool) (f : Nat) : (w.scanFrame b f).offWords = w.offWords := by
  have body (v : Work) (l : List Nat) (g : Work → Nat → Nat) :
      (l.foldl (fun (w : Work) k => w.readWord (g w k) .scan true) v).offWords = v.offWords :=
    foldl_offWords _ (fun _ _ => Work.readWord_offWords _ _ _ _) l v
  unfold Work.scanFrame
  dsimp only
  repeat' split
  all_goals simp [body _ _ fun (w : Work) k => frameWord w.geometry f k]

@[simp] theorem Work.resolve_offWords (w : Work) (p : Pocket) (b : Bool) : (w.resolve p b).offWords = w.offWords := by
  unfold Work.resolve
  dsimp only
  repeat' split
  all_goals simp

@[simp] theorem Work.settleOrphan_offWords (w : Work) (f : Nat) : (w.settleOrphan f).offWords = w.offWords := by
  unfold Work.settleOrphan
  dsimp only
  repeat' split
  all_goals simp

theorem State.part_of_offWords {s t : State} (h : t.offWords = s.offWords) : t.part = s.part := (congrArg State.part h :)

end Sys2Proof.Machine
end
section
/-! SUPPORT. The words of the store, PLAN, the save and the operations at work as chains of changes. -/

namespace Sys2Proof.Machine

section
variable {s : State} {w w' : Work} (h : Changes s w.toState)
include h

/-! ### Reading and writing words -/

theorem Changes.of_offWords (e : w'.offWords = w.offWords) (hw : w.store.wf = true → w'.store.wf = true) : Changes s w'.toState :=
  h.same (congrArg State.heat e :) (congrArg State.arb e :) (congrArg State.part e :) (congrArg (fun v => v.ctl.loaded) e :) hw

theorem Changes.wrote (n : Nat) : Changes s (w.wrote n).toState := h.of_offWords rfl fun hw => Work.wrote_wf hw _
theorem Changes.failAfterWrite (n : Nat) : Changes s (w.failAfterWrite n).toState := h.of_offWords rfl fun hw => Work.failAfterWrite_wf hw _
theorem Changes.meet (f : Findings) : Changes s (w.meet f).toState := h.of_offWords rfl fun hw => Work.meet_wf hw _
theorem Changes.writeHeader (f : Nat) (x : Header) : Changes s (w.writeHeader f x).toState :=
  h.of_offWords rfl fun hw => Work.writeHeader_wf hw _ _
theorem Changes.writeFrameWord (f k : Nat) (x : Frame) : Changes s (w.writeFrameWord f k x).toState :=
  h.of_offWords rfl fun hw => Work.writeFrameWord_wf hw _ _ _
theorem Changes.writeSettingsWord (x : Settings) (k : Nat) : Changes s (w.writeSettingsWord x k).toState :=
  h.of_offWords rfl fun hw => Work.writeSettingsWord_wf hw _ _
theorem Changes.writeMark (m : OutageMark) : Changes s (w.writeMark m).toState := h.of_offWords rfl fun hw => Work.writeMark_wf hw _
theorem Changes.writeFormat (f : FormatWord) : Changes s (w.writeFormat f).toState := h.of_offWords rfl fun hw => Work.writeFormat_wf hw _
theorem Changes.readWord (n : Nat) (src : LatchSource) (b : Bool) : Changes s (w.readWord n src b).toState :=
  h.of_offWords (Work.readWord_offWords _ _ _ _) fun hw => Work.readWord_wf hw _ _ _
theorem Changes.writeMap (p : Pocket) (e : MapEntry) : Changes s (w.writeMap p e).toState :=
  h.of_offWords (Work.writeMap_offWords _ _ _) fun hw => Work.writeMap_wf hw _ _
theorem Changes.endMapFault (p : Pocket) : Changes s (w.endMapFault p).toState := by
  unfold Work.endMapFault
  split
  · exact h.same_store rfl rfl rfl rfl rfl
  · exact h
theorem Changes.withdraw (f : Nat) : Changes s (w.withdraw f).toState := (h.writeHeader _ _).quarantineFrame _
theorem Changes.onRun (f : Running → Running) : Changes s (w.onRun f).toState := h.same_store rfl rfl rfl rfl rfl
theorem Changes.onMove (f : MoveData → MoveData) : Changes s (w.onMove f).toState := h.onRun _
theorem Changes.serveOp (r : Running) : Changes s (w.serveOp r).toState := h.same_store rfl rfl rfl rfl rfl
theorem Changes.readWholeFrame (f : Nat) (src : LatchSource) (b : Bool) : Changes s (w.readWholeFrame f src b).toState :=
  foldl_changes _ (fun _ _ _ hw => hw.readWord _ _ _) _ h

/-! ### Parts that no reservation, slot or store word stands in -/

theorem Changes.withPlan (x : Planner) : Changes s ({ w with plan := x } : Work).toState := h.same_store rfl rfl rfl rfl rfl
theorem Changes.withSup (x : Supply) : Changes s ({ w with sup := x } : Work).toState := h.same_store rfl rfl rfl rfl rfl
theorem Changes.withBackup (x : Backup) : Changes s ({ w with backup := x } : Work).toState := h.same_store rfl rfl rfl rfl rfl
theorem Changes.withSag (x : SagThrottle) : Changes s ({ w with sag := x } : Work).toState := h.same_store rfl rfl rfl rfl rfl
theorem Changes.withPort (x : HostPort) : Changes s ({ w with port := x } : Work).toState := h.same_store rfl rfl rfl rfl rfl
theorem Changes.withLink (x : LinkCtl) : Changes s ({ w with link := x } : Work).toState := h.same_store rfl rfl rfl rfl rfl
theorem Changes.withCtl {x : StoreCtl} (e : x.loaded = w.ctl.loaded) : Changes s ({ w with ctl := x } : Work).toState :=
  h.same_store rfl rfl rfl e rfl

/-! ### PLAN (sections 8.1 and 8.5) -/

theorem Changes.beginMove {r : Running} {f : Nat} {ks : List Nat} (e : w.beginMove r f ks = some w') : Changes s w'.toState := by
  unfold Work.beginMove at e
  split at e
  · cases e
  · obtain rfl := Option.some.inj e
    exact h.same_store rfl rfl rfl rfl rfl

/-- Outside ACTIVE the part state may change. -/
theorem Changes.enter (out : w.part ≠ .active) (x : PartState) : Changes s (w.enter x).toState := h.tail (.outside out id rfl rfl)

theorem Changes.openWindow (p : Pocket) : Changes s (w.openWindow p).toState := by
  unfold Work.openWindow
  exact (h.withPlan _).postPoll p

theorem Changes.bringUp : Changes s w.bringUp.toState := by
  unfold Work.bringUp
  refine Changes.broadcastSafe (foldl_changes _ (fun s w p h => Changes.onLink ?_ _ _) _ (h.setQueue _))
  split <;> simp [h]

theorem Changes.enterPlan (out : w.part ≠ .active) (b : Bool) : Changes s (w.enterPlan b).toState := by
  unfold Work.enterPlan
  have up := (h.enter out .plan).bringUp
  generalize (w.enter .plan).bringUp = v at up ⊢
  refine Changes.openWindow ?_ _
  dsimp only
  split
  · refine foldl_changes _ (fun s w p h => h.cond (·.enqueue _)) _ ?_
    exact up.same_store rfl rfl rfl rfl rfl
  · exact up.same_store rfl rfl rfl rfl rfl

theorem Changes.enqueueCommitMove (p : Pocket) (f : Nat) : Changes s (w.enqueueCommitMove p f).toState := by
  unfold Work.enqueueCommitMove
  split
  · exact h.same_store rfl rfl rfl rfl rfl
  · exact h.enqueue _

theorem Changes.commitRecord (p : Pocket) (x : Image) : Changes s (w.commitRecord p x).toState := by
  have marked {c : Prop} [Decidable c] (k : PocketEvent) (v : Work) (hv : Changes s v.toState) :
      Changes s (if c then v else v.mark k p).toState := by
    split
    · exact hv
    · exact hv.mark _ _
  unfold Work.commitRecord
  split
  · exact ((h.dropContext _).mark _ _).enqueue _
  · dsimp only
    split
    · exact (((marked _ _ (marked _ _ (h.setCtx _ _))).cond (·.mark _ _))).enqueueCommitMove _ _
    · exact (((marked _ _ (marked _ _ (h.setCtx _ _))).cond (·.mark _ _))).demandCheckpoint _

theorem Changes.takeUp (p : Pocket) : Changes s (w.takeUp p).toState := by
  unfold Work.takeUp
  split
  · exact h
  · dsimp only
    exact h.cond (·.setCtx _ _)

theorem Changes.planRecords : Changes s w.planRecords.toState := by
  unfold Work.planRecords
  split
  · exact (foldl_changes _ (fun s w p h => Changes.takeUp h p) _ h).same_store rfl rfl rfl rfl rfl
  · exact h

theorem Changes.commitNext : Changes s w.commitNext.toState := by
  unfold Work.commitNext
  split
  · split
    · exact (h.withPlan _).commitRecord _ _
    · exact (h.withPlan _).enqueue _
  · exact h

theorem Changes.planOn : Changes s w.planOn.toState := h.planRecords.commitNext

theorem Changes.beginPlanning : Changes s w.beginPlanning.toState :=
  (h.withPlan _).planOn

theorem Changes.endWindow : Changes s w.endWindow.toState := by
  unfold Work.endWindow
  split
  · exact h
  · split
    · exact h.openWindow _
    · exact h.beginPlanning

theorem Changes.enterActive (out : w.part ≠ .active) : Changes s w.enterActive.toState := by
  have part : (allPockets.foldl (fun (w : Work) p => if (w.pocketLink p).state = .online then w.postClearDoor p else w) w).part = w.part := by
    refine foldl_view State.part _ (fun w p => ?_) _ w
    split
    · exact (congrArg State.part (w.postClearDoor_offLink p) :)
    · rfl
  have doors := foldl_changes (fun (w : Work) p => if (w.pocketLink p).state = .online then w.postClearDoor p else w)
    (fun s w p h => h.cond (·.postClearDoor _)) allPockets h
  unfold Work.enterActive
  dsimp only
  generalize List.foldl (fun (w : Work) p => if (w.pocketLink p).state = .online then w.postClearDoor p else w) w allPockets = u at part doors ⊢
  have active := doors.enter (part ▸ out) .active
  refine foldl_changes _ (fun s w p h => h.rederive p) _ (foldl_changes _ (fun s w p h => ?_) _ ?_)
  · split
    · exact h.cond (·.makeRequest _ _)
    · exact h
  · exact active.same_store rfl rfl rfl rfl rfl

theorem Changes.completePlan : Changes s w.completePlan.toState := h.same_store rfl rfl rfl rfl rfl

/-! ### The save (sections 7.3 and 7.4) -/

theorem Changes.endSave (out : w.part ≠ .active) : Changes s w.endSave.toState := by
  unfold Work.endSave
  dsimp only
  split
  · refine Changes.enterPlan ?_ ?_ _
    · exact h.withSup _
    · exact out
  · refine Changes.enter ?_ ?_ _
    · exact h.withSup _
    · exact out

theorem Changes.charge : Changes s w.charge.toState := h.same_store rfl rfl rfl rfl rfl

omit h in
theorem Work.onCtx_part (w : Work) (p : Pocket) (f : Context → Context) : (w.onCtx p f).part = w.part := by
  unfold Work.onCtx; split <;> rfl

omit h in
theorem Work.pin_part (w : Work) (p : Pocket) : (w.pin p).part = w.part := (congrArg State.part (w.pin_offRecord p) :)

omit h in
theorem Work.saveNext_changes : ∀ (n : Nat) {w : Work}, Changes s w.toState → w.part ≠ .active → Changes s (Work.saveNext n w).toState
  | 0, _, h, _ => h
  | n + 1, w, h, out => by
    unfold Work.saveNext
    split
    · exact h.endSave out
    · dsimp only
      split
      · split
        · rename_i e
          exact (h.charge.onCtx _ _).beginMove e
        · refine Work.saveNext_changes n (((h.charge.onCtx _ _).onCtx _ _).pin _) ?_
          simpa only [Work.pin_part, Work.onCtx_part, Work.charge_part] using out
      · exact (h.charge.onCtx _ _).serveOp _

theorem Changes.decideMark : Changes s w.decideMark.toState := by
  unfold Work.decideMark
  split
  · exact h
  · exact h.same_store rfl rfl rfl rfl rfl

omit h in
@[simp] theorem Work.decideMark_part (w : Work) : w.decideMark.part = w.part := by
  unfold Work.decideMark; split <;> rfl

/-- What an operation that ends in SAVE counts, before the next is chosen. -/
def Work.saveCounted (w : Work) (r : Running) : Work :=
  if w.sup.save.opAtWarning then
    Work.decideMark { w.charge with sup := { w.charge.sup with save := { w.charge.sup.save with opAtWarning := false } } }
  else
    match r.op with
    | .retire _ _ _ _ => w.charge
    | .staticRead _ _ => if r.move.isSome then w.charge else w
    | .saveWrite p =>
      if ((w.ctx p).map (·.pinned)).getD false then w
      else { w with sup := { w.sup with save := { w.sup.save with written := w.sup.save.written + 1 } } }
    | _ => w

omit h in
theorem Work.saveAdvance_eq (w : Work) (r : Running) :
    w.saveAdvance r = if (w.saveCounted r).ctl.queue.isEmpty then Work.saveNext 40 (w.saveCounted r) else w.saveCounted r := rfl

theorem Changes.saveCounted (r : Running) : Changes s (w.saveCounted r).toState := by
  unfold Work.saveCounted
  repeat' split
  · exact (h.charge.withSup _).decideMark
  · exact h.charge
  · exact h.charge
  · exact h
  · exact h
  · exact h.same_store rfl rfl rfl rfl rfl
  · exact h

omit h in
theorem Work.saveCounted_part (w : Work) (r : Running) : (w.saveCounted r).part = w.part := by
  unfold Work.saveCounted
  repeat' split
  all_goals simp

theorem Changes.saveAdvance (out : w.part ≠ .active) (r : Running) : Changes s (w.saveAdvance r).toState := by
  rw [Work.saveAdvance_eq]
  exact (h.saveCounted r).cond fun h => Work.saveNext_changes 40 h (by rwa [Work.saveCounted_part])

theorem Changes.endOp (r : Running) : Changes s (w.endOp r).toState := by
  have free : Changes s ({ w with ctl := { w.ctl with current := none } } : Work).toState := h.withCtl rfl
  unfold Work.endOp
  dsimp only
  split
  · rename_i hs
    exact free.saveAdvance (by simp [hs]) r
  · exact free.planOn
  · exact free

theorem Changes.checkpointEnded (p : Pocket) : Changes s (w.checkpointEnded p).toState := h.onCtx _ _

/-! ### Operations at work (section 2.4) -/

theorem Changes.onOpContext (r : Running) (f : Context → Context) : Changes s (w.onOpContext r f).toState := by
  unfold Work.onOpContext
  split
  · exact h.onRun _
  · exact h.onCtx _ _
  · exact h

theorem Changes.onRetire (p : Pocket) (f : Nat → Nat) (b : Bool) : Changes s (w.onRetire p f b).toState :=
  h.same_store rfl rfl rfl rfl rfl

theorem Changes.pinForOp (r : Running) : Changes s (w.pinForOp r).toState := by
  unfold Work.pinForOp
  split
  · exact h.pin _
  · exact ((h.onRun _).onRetire _ _ _).markPart _
  · exact h

theorem Changes.mergeFails (r : Running) (f k : Nat) : Changes s (w.mergeFails r f k).toState := by
  unfold Work.mergeFails
  split
  · rename_i e
    exact h.beginMove e
  · exact (h.pinForOp _).onRun _

theorem Changes.carry (r : Running) (m : FieldSet) : Changes s (w.carry r m).toState := (h.onRun _).onOpContext _ _

theorem Changes.mergeWord (r : Running) (c : Context) (k : Nat) : Changes s (w.mergeWord r c k).toState := by
  unfold Work.mergeWord
  dsimp only
  split
  · exact ((h.readWord _ _ _).writeFrameWord _ _ _).carry _ _
  · exact (h.readWord _ _ _).mergeFails _ _ _

theorem Changes.headerClose (r : Running) (p : Pocket) (c : Context) (b : Bool) : Changes s (w.headerClose r p c b).toState :=
  (h.writeHeader _ _).onOpContext _ _

theorem Changes.firstWordLost (r : Running) (k : Nat) : Changes s (w.firstWordLost r k).toState := by
  unfold Work.firstWordLost
  split
  · exact h.cond (·.levelLost _)
  · exact h

theorem Changes.staticMerge (r : Running) (c : Context) (x : StaticChange) : Changes s (w.staticMerge r c x).toState := by
  unfold Work.staticMerge
  dsimp only
  split
  · exact (h.readWord _ _ _).writeFrameWord _ _ _
  · exact (h.readWord _ _ _).mergeFails _ _ _

theorem Changes.readStatic (r : Running) (c : Context) (k : Nat) : Changes s (w.readStatic r c k).toState := by
  have read := fun n b => h.readWord n .read b
  unfold Work.readStatic
  dsimp only
  repeat' split
  · exact (read _ _).onRun _
  · exact ((read _ _).firstWordLost _ _).onRun _
  · rename_i e
    exact (read _ _).beginMove e
  · exact ((read _ _).pinForOp _).onRun _

theorem Changes.moveRead (m : MoveData) (c : Context) (k : Nat) : Changes s (w.moveRead m c k).toState := by
  unfold Work.moveRead
  dsimp only
  split
  · exact (h.readWord _ _ _).onMove _
  · exact h.readWord _ _ _

theorem Changes.moveReadRest (r : Running) (m : MoveData) (c : Context) : Changes s (w.moveReadRest r m c).toState := by
  unfold Work.moveReadRest
  dsimp only
  split <;> split
  · exact (h.onMove _).onMove _
  · exact (((h.readWord _ _ _).readWord _ _ _).onMove _).onMove _
  · exact h.onMove _
  · exact ((h.readWord _ _ _).readWord _ _ _).onMove _

theorem Changes.moveMap (r : Running) (m : MoveData) (p : Pocket) (c : Context) : Changes s (w.moveMap r m p c).toState :=
  ((((h.writeMap _ _).onOpContext _ _).cond (·.markPart _)).onRetire _ _ _).quarantineFrame _

theorem Changes.retireMap (p : Pocket) (f : Nat) (b : Bool) : Changes s (w.retireMap p f b).toState := by
  have written := (h.writeMap p ⟨false, 0, (w.ctl.mirror[p]).gen⟩).cond (c := (w.writeMap p ⟨false, 0, (w.ctl.mirror[p]).gen⟩).mapGood p) (·.endMapFault p)
  unfold Work.retireMap
  dsimp only
  split
  · exact written.quarantineFrame _
  · exact written.freeFrame _

theorem Changes.formatMapWord (p : Pocket) : Changes s (w.formatMapWord p).toState := by
  unfold Work.formatMapWord
  dsimp only
  split
  · exact h.writeMap _ _
  · exact (h.writeMap _ _).markPart _

theorem Changes.recordAccess (r : Running) (p : Pocket) (c : Context) (a : Access) : Changes s (w.recordAccess r p c a).toState := by
  unfold Work.recordAccess
  split
  · exact h.writeHeader _ _
  · exact h.mergeWord _ _ _
  · exact h.headerClose _ _ _ _
  · exact h.headerClose _ _ _ _
  · exact h.staticMerge _ _ _
  · exact h.readStatic _ _ _
  · exact h.moveRead _ _ _
  · exact h.moveReadRest _ _ _
  · exact (h.writeFrameWord _ _ _).carry _ _
  · exact h.writeHeader _ _
  · exact h.moveMap _ _ _ _
  · exact h.writeHeader _ _
  · exact h

theorem Changes.plainAccess (r : Running) (a : Access) : Changes s (w.plainAccess r a).toState := by
  unfold Work.plainAccess
  split
  · exact h.writeFrameWord _ _ _
  · exact h.writeHeader _ _
  · exact (h.writeMap _ _).onRun _
  · exact h.retireMap _ _ _
  · exact h.writeHeader _ _
  · split
    · exact (h.readWord _ _ _).onRun _
    · exact h
  · exact (h.writeMap _ _).onRun _
  · exact (h.writeMap _ _).onRun _
  · refine Changes.writeMark ?_ _
    exact h.withSup _
  · exact h.writeSettingsWord _ _
  · exact h.writeFormat _
  · refine Changes.writeSettingsWord ?_ _ _
    exact h.withCtl rfl
  · refine Changes.writeMark ?_ _
    exact h.withSup _
  · exact h.formatMapWord _
  · refine foldl_changes _ (fun _ _ _ h => h.wrote _) _ ?_
    exact h.same rfl rfl rfl rfl fun hw => Store.setFrame_wf hw _ _
  · refine Changes.writeFormat ?_ _
    exact h.withCtl rfl
  · exact (h.readWholeFrame _ _ _).withPlan _
  · exact h

theorem Changes.access : Changes s w.access.toState := by
  unfold Work.access
  split
  · exact h
  · split
    · exact h
    · dsimp only
      split
      · refine Changes.recordAccess ?_ _ _ _ _
        exact h.withCtl rfl
      · refine Changes.plainAccess ?_ _ _
        exact h.withCtl rfl

omit h in
theorem Work.runPlain_changes : ∀ (n : Nat) {w : Work}, Changes s w.toState → Changes s (Work.runPlain n w).toState
  | 0, _, h => h
  | n + 1, w, h => by
    unfold Work.runPlain
    split
    · split
      · exact h
      · exact Work.runPlain_changes n h.access
    · exact h

omit h in
theorem Work.runAll_changes : ∀ (n : Nat) {w : Work}, Changes s w.toState → Changes s (Work.runAll n w).toState
  | 0, _, h => h
  | n + 1, w, h => by
    unfold Work.runAll
    split
    · split
      · exact h
      · exact Work.runAll_changes n h.access
    · exact h

theorem Changes.staticChanged (p : Pocket) (x : StaticChange) : Changes s (w.staticChanged p x).toState := by
  unfold Work.staticChanged
  split
  · exact (h.onCtx _ _).rederive _
  · exact h.cond (·.endCrease _)

theorem Changes.recordOpEnds (r : Running) (x : Statics) : Changes s (w.recordOpEnds r x).toState := by
  unfold Work.recordOpEnds
  split
  · exact h.checkpointEnded _
  · exact h.checkpointEnded _
  · exact h.cond (·.checkpointEnded _)
  · exact foldl_changes _ (fun _ _ _ h => h.fillRead _ _ _) _ h
  · exact h.respond _ _
  · split
    · exact (h.staticChanged _ _).respond _ _
    · exact h.respond _ _
  · exact h

theorem Changes.endRecordOp (r : Running) : Changes s (w.endRecordOp r).toState := (h.recordOpEnds _ _).endOp _

theorem Changes.endMove (r : Running) (m : MoveData) : Changes s (w.endMove r m).toState := by
  unfold Work.endMove
  dsimp only
  split
  · exact (((h.onCtx _ _).rederive _).recordOpEnds _ _).endOp _
  · exact (h.recordOpEnds _ _).endOp _

theorem Changes.endOpen (r : Running) (p : Pocket) (g n : Nat) (b : Bool) : Changes s (w.endOpen r p g n b).toState := by
  unfold Work.endOpen
  split
  · exact (((h.setCtx _ _).rederive _).respond _ _).endOp _
  · refine ((Changes.freeFrame (Changes.writeHeader ?_ _ _) _).respond _ _).endOp _
    exact h.withCtl rfl

/-! ### Serving (R40) -/

theorem Changes.endsAtOnce (op : StoreOp) : Changes s (w.endsAtOnce op).toState := h.endOp _

theorem Changes.serveCheckpoint (p : Pocket) : Changes s (w.serveCheckpoint p).toState := by
  unfold Work.serveCheckpoint
  split
  · exact h.endsAtOnce _
  · split
    · exact (h.checkpointEnded _).endsAtOnce _
    · exact (h.onCtx _ _).serveOp _

theorem Changes.serveMove (p : Pocket) (f : Nat) (b : Bool) : Changes s (w.serveMove p f b).toState := by
  unfold Work.serveMove
  split
  · exact h.endsAtOnce _
  · split
    · exact h.endsAtOnce _
    · split
      · rename_i e
        exact (h.beginMove e).cond (·.onCtx _ _)
      · refine Changes.endsAtOnce ?_ _
        split
        · exact (h.pin _).checkpointEnded _
        · exact h.pin _

theorem Changes.serve1 (op : StoreOp) : Changes s (w.serve1 op).toState := by
  unfold Work.serve1
  split
  · exact h.serveOp _
  · split
    · exact h.endsAtOnce _
    · exact h.serveOp _
  · split
    · exact (h.respond _ _).endsAtOnce _
    · exact h.serveOp _
  · split
    · exact (h.respond _ _).endsAtOnce _
    · split
      · exact (h.respond _ _).endsAtOnce _
      · exact h.serveOp _
  · exact h.serveCheckpoint _
  · exact h.endsAtOnce _
  · split
    · exact (h.respond _ _).endsAtOnce _
    · refine Changes.serveOp ?_ _
      exact h.withCtl rfl
  · exact h.serveOp _
  · exact h.serveMove _ _ _
  all_goals exact h.serveOp _

theorem Changes.serveNext : Changes s w.serveNext.toState := by
  unfold Work.serveNext
  split
  · refine Changes.serve1 ?_ _
    exact h.withCtl rfl
  · exact h

end

end Sys2Proof.Machine
end
section
/-! SUPPORT. The START scan, the patrol, the host's requests and the events of every block as chains of changes. -/

namespace Sys2Proof.Machine

section
variable {s : State} {w : Work} (h : Changes s w.toState)
include h

/-! ### The START scan and the patrol -/

theorem Changes.scanHeader (out : w.part ≠ .active) : Changes s w.scanHeader.toState := by
  have read := foldl_changes (fun (w : Work) n => w.readWord n .scan true) (fun _ _ _ h => h.readWord _ _ _) (List.range 13) h
  have part : ((List.range 13).foldl (fun (w : Work) n => w.readWord n .scan true) w).part = w.part :=
    foldl_view State.part _ (fun w n => State.part_of_offWords (Work.readWord_offWords w n .scan true)) _ w
  unfold Work.scanHeader
  dsimp only
  generalize (List.range 13).foldl (fun (w : Work) n => w.readWord n .scan true) w = v at read part ⊢
  exact read.tail (.outside (part ▸ out) id rfl rfl)

omit h in
theorem Work.scanHeader_part (w : Work) : w.scanHeader.part = w.part := by
  have part : ((List.range 13).foldl (fun (w : Work) n => w.readWord n .scan true) w).part = w.part :=
    foldl_view State.part _ (fun w n => State.part_of_offWords (Work.readWord_offWords w n .scan true)) _ w
  unfold Work.scanHeader
  dsimp only
  generalize (List.range 13).foldl (fun (w : Work) n => w.readWord n .scan true) w = v at part ⊢
  exact part

theorem Changes.scanMark : Changes s w.scanMark.toState := by
  unfold Work.scanMark
  dsimp only
  split
  · exact (h.readWord _ _ _).withSup _
  · exact ((h.readWord _ _ _).writeMark _).withSup _

theorem Changes.scanMapWord (p : Pocket) : Changes s (w.scanMapWord p).toState := by
  have mirrored := h.readWord (mapWord p) .scan true
  unfold Work.scanMapWord
  dsimp only
  generalize w.readWord (mapWord p) .scan true = v at mirrored ⊢
  refine Changes.cond ?_ (·.writeMap _ _)
  exact mirrored.withCtl rfl

theorem Changes.scanFrame (b : Bool) (f : Nat) : Changes s (w.scanFrame b f).toState := by
  have read := h.readWord (frameWord w.geometry f 0) .scan ((w.store.frame f).header.state != .quarantined)
  unfold Work.scanFrame
  dsimp only
  generalize w.readWord (frameWord w.geometry f 0) .scan ((w.store.frame f).header.state != .quarantined) = v at read ⊢
  have body := foldl_changes (fun (w : Work) k => w.readWord (frameWord w.geometry f k) .scan true)
    (fun _ _ _ h => h.readWord _ _ _) ((List.range (frameSize v.geometry)).drop 1) read
  repeat' split
  · exact read.withdraw _
  · exact read.quarantineFrame _
  · exact body.withdraw _
  · exact body
  · exact body.writeFrameWord _ _ _
  · exact body

theorem Changes.resolve (p : Pocket) (b : Bool) : Changes s (w.resolve p b).toState := by
  unfold Work.resolve
  dsimp only
  repeat' split
  · exact h.writeMap _ _
  · exact h.writeMap _ _
  · exact (h.writeMap _ _).mark _ _
  · exact h

theorem Changes.settleOrphan (f : Nat) : Changes s (w.settleOrphan f).toState := by
  unfold Work.settleOrphan
  dsimp only
  repeat' split
  · exact h.withdraw _
  · exact h.writeHeader _ _
  · exact h

theorem Changes.scanBody : Changes s w.scanBody.toState := by
  have absent := foldl_changes (fun (w : Work) p => if w.count ≤ p.val then w.setLinkState p .absent none else w)
    (fun _ _ _ h => h.cond (·.setLinkState _ _ _)) allPockets h
  unfold Work.scanBody
  dsimp only
  generalize List.foldl (fun (w : Work) p => if w.count ≤ p.val then w.setLinkState p .absent none else w) w allPockets = a at absent ⊢
  have maps := foldl_changes (fun (w : Work) p => w.scanMapWord p) (fun _ _ _ h => h.scanMapWord _) allPockets absent.scanMark
  generalize List.foldl (fun (w : Work) p => w.scanMapWord p) a.scanMark allPockets = b at maps ⊢
  have frames := foldl_changes (fun (w : Work) f => w.scanFrame (!a.readable markWord) f) (fun _ _ _ h => h.scanFrame _ _) b.frameNumbers maps
  generalize List.foldl (fun (w : Work) f => w.scanFrame (!a.readable markWord) f) b b.frameNumbers = c at frames ⊢
  have entries := fun (lost : List Pocket) =>
    foldl_changes (fun (w : Work) p => w.resolve p (lost.contains p)) (fun _ _ _ h => h.resolve _ _) c.pockets frames
  have settled := fun (l : List Pocket) (fs : List Nat) =>
    foldl_changes (fun (w : Work) f => w.settleOrphan f) (fun _ _ _ h => h.settleOrphan _) fs (entries l)
  exact (settled _ _).same_store rfl rfl rfl rfl rfl

omit h in
theorem Work.scanBody_part (w : Work) : w.scanBody.part = w.part := by
  have absent : (allPockets.foldl (fun (w : Work) p => if w.count ≤ p.val then w.setLinkState p .absent none else w) w).part = w.part :=
    foldl_view State.part _ (fun w p => by
      split
      · exact (congrArg State.part (w.setLinkState_offRecord p p .absent none) :)
      · rfl) _ w
  have mark (v : Work) : v.scanMark.part = v.part := by
    unfold Work.scanMark
    dsimp only
    split
    · exact State.part_of_offWords (Work.readWord_offWords v _ _ _)
    · exact State.part_of_offWords (Work.readWord_offWords v _ _ _)
  unfold Work.scanBody
  dsimp only
  generalize List.foldl (fun (w : Work) p => if w.count ≤ p.val then w.setLinkState p .absent none else w) w allPockets = a at absent ⊢
  have maps : (List.foldl (fun (w : Work) p => w.scanMapWord p) a.scanMark allPockets).part = a.scanMark.part :=
    State.part_of_offWords (foldl_offWords _ (fun _ _ => Work.scanMapWord_offWords _ _) _ _)
  generalize List.foldl (fun (w : Work) p => w.scanMapWord p) a.scanMark allPockets = b at maps ⊢
  refine (State.part_of_offWords ?_).trans (maps.trans ((mark a).trans absent))
  refine (foldl_offWords (fun (w : Work) f => w.settleOrphan f) (fun _ _ => Work.settleOrphan_offWords _ _) _ _).trans ?_
  refine (foldl_offWords _ (fun _ _ => Work.resolve_offWords _ _ _) _ _).trans ?_
  exact foldl_offWords _ (fun _ _ => Work.scanFrame_offWords _ _ _) _ _

theorem Changes.startScan (out : w.part ≠ .active) : Changes s w.startScan.toState := by
  have header := h.scanHeader out
  have headed : w.scanHeader.part ≠ .active := by rwa [Work.scanHeader_part]
  unfold Work.startScan
  dsimp only
  split
  · exact header.scanBody.cond (·.enterPlan (by rwa [Work.scanBody_part]) _)
  · exact (header.enter headed _).broadcastSafe

theorem Changes.patrolHeader (n : Nat) : Changes s (w.patrolHeader n).toState := by
  have read := h.readWord n .patrol true
  have judged {v : Work} (hv : Changes s v.toState) : Changes s
      (if (v.failAfterWrite n).readable n then (v.failAfterWrite n).readWord n .read true
        else ((v.failAfterWrite n).readWord n .read true).markPart .store).toState := by
    split
    · exact (hv.failAfterWrite _).readWord _ _ _
    · exact ((hv.failAfterWrite _).readWord _ _ _).markPart _
  unfold Work.patrolHeader
  dsimp only
  split
  · exact read
  · refine judged ?_
    repeat' split
    · exact read.writeFormat _
    · exact read.writeMark _
    · exact read.writeSettingsWord _ _

theorem Changes.patrolMap (p : Pocket) : Changes s (w.patrolMap p).toState := by
  unfold Work.patrolMap
  dsimp only
  split
  · exact h.readWord _ _ _
  · exact (h.readWord _ _ _).writeMap _ _

theorem Changes.patrolFrame (n f : Nat) : Changes s (w.patrolFrame n f).toState := by
  unfold Work.patrolFrame
  dsimp only
  split
  · split
    · exact h.readWord _ _ _
    · exact (h.readWord _ _ _).enqueue _
  · split
    · exact h.readWord _ _ _
    · refine Changes.withdraw ?_ _
      exact (h.readWord _ _ _).withCtl rfl

theorem Changes.patrol : Changes s w.patrol.toState := by
  have moved (x : StoreCtl) (e : x.loaded = w.ctl.loaded) : Changes s ({ w with ctl := x } : Work).toState := h.withCtl e
  unfold Work.patrol
  dsimp only
  repeat' split
  · exact moved _ rfl
  · refine Changes.patrolHeader ?_ _
    exact moved _ rfl
  · refine Changes.patrolMap ?_ _
    exact moved _ rfl
  · refine Changes.patrolFrame ?_ _ _
    exact moved _ rfl

/-! ### Requests of the host (chapter 9) -/

theorem Changes.takeStart (p : Pocket) (c : Context) : Changes s (w.takeStart p c).toState := by
  unfold Work.takeStart
  dsimp only
  split
  · split
    · exact ((((h.onFast _ _).heatExit _).makeRequest _ _).rederive _).respond _ _
    · exact (((((h.onFast _ _).mark _ _).demandCheckpoint _).makeRequest _ _).rederive _).respond _ _
  · split
    · exact (((((h.onFast _ _).mark _ _).demandCheckpoint _).makeRequest _ _).rederive _).respond _ _
    · exact h.respond _ _

theorem Changes.takeExtend (p : Pocket) (c : Context) (n : Nat) : Changes s (w.takeExtend p c n).toState := by
  unfold Work.takeExtend
  split
  · exact (h.onFast _ _).respond _ _
  · exact h.respond _ _

theorem Changes.takeEndHeat (p : Pocket) (c : Context) : Changes s (w.takeEndHeat p c).toState := by
  unfold Work.takeEndHeat
  split
  · exact ((((h.cond (w' := (w.onFast p _).mark .hold p) fun h => (h.onFast _ _).mark _ _).heatExit _).cond (·.makeRequest _ _)).rederive _).respond _ _
  · exact h.respond _ _

theorem Changes.takeSetOptions (p : Pocket) (x y : Byte) : Changes s (w.takeSetOptions p x y).toState := by
  unfold Work.takeSetOptions
  split
  · exact h.respond _ _
  · exact h.enqueue _

theorem Changes.onRecord (r : HostReq) (p : Pocket) (c : Context) : Changes s (w.onRecord r p c).toState := by
  unfold Work.onRecord
  split
  · exact h.takeStart _ _
  · exact h.takeExtend _ _ _
  · exact h.takeEndHeat _ _
  · exact h.enqueue _
  · exact h.takeSetOptions _ _ _
  · exact h.retireRecord _ _
  · exact h.enqueue _
  · exact h

theorem Changes.onMapFault (r : HostReq) (p : Pocket) : Changes s (w.onMapFault r p).toState := by
  unfold Work.onMapFault
  repeat' split
  · exact h.retireRecord _ _
  · exact h.respond _ _
  · exact h.respond _ _

theorem Changes.translated (r : HostReq) (p : Pocket) (e : MapEntry) : Changes s (w.translated r p e).toState := by
  unfold Work.translated
  split
  · exact h.respond _ _
  · split
    · exact h.onMapFault _ _
    · split
      · split
        · exact h.respond _ _
        · exact h.enqueue _
      · split
        · exact h.respond _ _
        · split
          · exact h.respond _ _
          · exact h.onRecord _ _ _

theorem Changes.ownTranslated (r : HostReq) (p : Nat) : Changes s (w.ownTranslated r p).toState := by
  unfold Work.ownTranslated
  repeat' split
  · exact h.respond _ _
  · exact h.respond _ _
  · exact h.enqueue _

theorem Changes.ownRetire (p : Nat) : Changes s (w.ownRetire p).toState := by
  unfold Work.ownRetire
  repeat' split
  · exact h.respond _ _
  · exact h.onMapFault _ _
  · exact h.enqueue _

/-- The start enable mask changed. -/
theorem Changes.withMask (m : Mask) (g : Bool) : Changes s ({ w with arb := { w.arb with mask := m }, grant := g } : Work).toState :=
  h.ordinary rfl rfl id (HeatUnit.Less.rfl' _) ⟨List.Sublist.refl _, fun _ _ hn => hn⟩

theorem Changes.ownHold (p : Nat) : Changes s (w.ownHold p).toState := by
  unfold Work.ownHold
  split
  · exact h.respond _ _
  · exact (h.withMask _ w.grant).respond _ _

theorem Changes.ownRelease (p : Nat) : Changes s (w.ownRelease p).toState := by
  unfold Work.ownRelease
  split
  · exact h.respond _ _
  · exact (h.withMask _ true).respond _ _

theorem Changes.ownHoldMask (x y : Mask) : Changes s (w.ownHoldMask x y).toState := by
  unfold Work.ownHoldMask
  split
  · exact h.respond _ _
  · exact (h.withMask _ _).respond _ _

theorem Changes.ownClearPocket (p : Nat) : Changes s (w.ownClearPocket p).toState := by
  unfold Work.ownClearPocket
  repeat' split
  · exact h.respond _ _
  · dsimp only
    split
    · exact ((h.setLinkState _ _ _).onLink _ _).respond _ _
    · exact h.respond _ _

theorem Changes.ownRemap (p : Nat) : Changes s (w.ownRemap p).toState := by
  unfold Work.ownRemap
  repeat' split
  · exact h.respond _ _
  · exact h.respond _ _
  · exact h.enqueue _

theorem Changes.ownEnterCommission : Changes s w.ownEnterCommission.toState := by
  unfold Work.ownEnterCommission
  split
  · exact h.respond _ _
  · refine Changes.respond (Changes.broadcastSafe ?_) _ _
    exact h.tail (.cleared (by simp [Work.enter]) rfl rfl)

theorem Changes.ownFormat (g n : Nat) : Changes s (w.ownFormat g n).toState := by
  unfold Work.ownFormat
  repeat' split
  · exact h.enqueue _
  · exact h.respond _ _
  · exact h.respond _ _

theorem Changes.ownSetSetting (i v : Nat) : Changes s (w.ownSetSetting i v).toState := by
  unfold Work.ownSetSetting
  split
  · refine Changes.enqueue ?_ _
    exact h.withCtl rfl
  · exact h.respond _ _

theorem Changes.ownGetSetting (i : Nat) : Changes s (w.ownGetSetting i).toState := by
  unfold Work.ownGetSetting
  split <;> exact h.respond _ _

theorem Changes.ownLeaveCommission : Changes s w.ownLeaveCommission.toState := by
  unfold Work.ownLeaveCommission
  split
  · refine Changes.respond ?_ _ _
    exact h.tail (.cleared id rfl rfl)
  · exact h.respond _ _

theorem Changes.own (r : HostReq) : Changes s (w.own r).toState := by
  unfold Work.own
  split
  case h_8 => exact h.ownRetire _
  case h_9 => exact h.ownHold _
  case h_10 => exact h.ownRelease _
  case h_11 => exact h.ownHoldMask _ _
  case h_12 => exact h.ownClearPocket _
  case h_13 => exact h.ownRemap _
  case h_14 => exact h.respond _ _
  case h_15 => exact Changes.respond (w := { w with events := EventSet.empty }) (h.same_store rfl rfl rfl rfl rfl) _ _
  case h_16 => exact h.respond _ _
  case h_17 => exact Changes.respond (w := { w with ctl := { w.ctl with latch := ErrorLatch.cleared, correctable := 0 } }) (h.withCtl rfl) _ _
  case h_18 => exact h.ownEnterCommission
  case h_19 => exact h.ownFormat _ _
  case h_20 => exact h.ownSetSetting _ _
  case h_21 => exact h.ownGetSetting _
  case h_22 => exact h.ownLeaveCommission
  all_goals exact h.ownTranslated _ _

theorem Changes.requestFrame (r : HostReq) : Changes s (w.requestFrame r (·.own r)).toState :=
  requestFrame_keeps (P := fun v => Changes s v.toState) (h.withPort _) (fun _ => (h.withPort _).respond _ _) (Changes.own (h.withPort _) _)

theorem Changes.rawFrame (b : List Byte) : Changes s (w.rawFrame b).toState := by
  unfold Work.rawFrame
  split
  · exact h.requestFrame _
  · dsimp only
    split
    · exact h.withPort _
    · exact Changes.respond (h.withPort _) _ _

end

end Sys2Proof.Machine
end
section
/-! SUPPORT. Every command as a chain of changes. -/

namespace Sys2Proof.Machine

theorem powered_changes {s t : State} {body : Work → Work} (hb : ∀ w : Work, Changes s w.toState → Changes s (body w).toState)
    (e : powered s body = .next t) : Changes s t :=
  powered_keeps .refl (Changes.finish (hb _ .refl)) e

theorem onExchange_changes {s t : State} {body : Work → Work} (hb : ∀ w : Work, Changes s w.toState → Changes s (body w).toState)
    (e : onExchange s body = .next t) : Changes s t :=
  powered_changes (fun w h => (hb w h).sendBroadcast) e

section
variable {s : State} {w : Work} (h : Changes s w.toState)
include h

/-! ### Store events -/

theorem Changes.endWhere {found : Findings} {f : StoreOp → Bool} {done : Running → Work → Work}
    (hd : ∀ r w, Changes s w.toState → Changes s (done r w).toState) : Changes s (w.endWhere found f done).toState :=
  endWhere_keeps (P := fun v => Changes s v.toState) h (Work.runPlain_changes _ (h.meet _)) hd

/-! ### The clocks -/

theorem Changes.endTumble (p : Pocket) : Changes s (w.endTumble p).toState := by
  unfold Work.endTumble
  dsimp only
  split
  · exact (h.onCtx _ _).endCrease _
  · exact ((h.onCtx _ _).removeRequest _).rederive _

theorem Changes.stepCrease (p : Pocket) (c : Context) (x : CreaseProgress) : Changes s (w.stepCrease p c x).toState := by
  have choose {c : Prop} [Decidable c] {v v' : Work} (h₁ : Changes s v.toState) (h₂ : Changes s v'.toState) :
      Changes s (if c then v else v').toState := by
    split
    · exact h₁
    · exact h₂
  have stepped := fun f => h.onCtx p f
  exact choose ((stepped _).endCrease _) (choose ((stepped _).endTumble _) ((stepped _).cond (·.makeRequest _ _)))

theorem Changes.stepHeat (p : Pocket) (f : Fast) : Changes s (w.stepHeat p f).toState := by
  unfold Work.stepHeat
  exact h.cond fun h => (h.onFast _ _).cond (·.heatExit _)

theorem Changes.stepCool (p : Pocket) (f : Fast) : Changes s (w.stepCool p f).toState := by
  unfold Work.stepCool
  dsimp only
  repeat' split
  · exact (h.onFast _ _).coolFirstExit _
  · exact h.onFast _ _
  · exact (h.onFast _ _).coolExit _
  · exact h.onFast _ _
  · exact h

theorem Changes.stepRecord (p : Pocket) : Changes s (w.stepRecord p).toState := by
  unfold Work.stepRecord
  split
  · exact h
  · split
    · exact h
    · split
      · exact h.stepHeat _ _
      · split
        · exact h
        · exact h.stepCool _ _
      · exact h.stepCrease _ _ _
      · exact h

theorem Changes.timerAtZero (p : Pocket) : Changes s (w.timerAtZero p).toState := by
  unfold Work.timerAtZero
  repeat' split
  · exact h
  · exact h.onCtx _ _
  · exact h.demandCheckpoint _
  · exact h

theorem Changes.stepTimer (p : Pocket) : Changes s (w.stepTimer p).toState := by
  unfold Work.stepTimer
  split
  · exact h
  · exact (h.onCtx _ _).cond (·.timerAtZero _)

/-! ### The link -/

theorem Changes.silence (p : Pocket) (e : Entry) : Changes s (w.silence p e).toState := by
  unfold Work.silence
  dsimp only
  repeat' split
  · exact h.endExchange.goOffline _
  · exact h.resend
  · exact h.endExchange.goOffline _
  · exact h.resend
  · exact h.endExchange.onLink _ _
  · exact h.endExchange
  · exact h.resend
  · exact h.endExchange

theorem Changes.believeReport (p : Pocket) (r : StatusReport) : Changes s (w.believeReport p r).toState :=
  (h.believeMotor _ _).believeHeat _ _

theorem Changes.lostStart (p : Pocket) (r : StatusReport) : Changes s (w.lostStart p r).toState := by
  unfold Work.lostStart
  exact (h.leaveWaitList _).cond (·.makeRequest _ _)

theorem Changes.noteTemperature (p : Pocket) (r : StatusReport) : Changes s (w.noteTemperature p r).toState := by
  unfold Work.noteTemperature
  split
  · exact h.onFast _ _
  · exact h

theorem Changes.judgeDoor (p : Pocket) (r : StatusReport) : Changes s (w.judgeDoor p r).toState := by
  unfold Work.judgeDoor
  dsimp only
  split
  · split
    · exact (h.doorOpened _).cond (·.postClearDoor _)
    · exact ((h.doorOpened _).doorClosed _).cond (·.postClearDoor _)
  · split
    · exact h.doorOpened _
    · exact h.doorClosed _

theorem Changes.judgeFaults (p : Pocket) (r : StatusReport) : Changes s (w.judgeFaults p r).toState := by
  unfold Work.judgeFaults
  dsimp only
  exact (h.cond (w' := (((w.recordFault p .heatFault).takeHold p .heatFault).releaseHeat p).converge p)
    fun h => (((h.recordFault _ _).takeHold _ _).releaseHeat _).converge _).cond (·.goFault _ _)

theorem Changes.statusInActive (p : Pocket) (r : StatusReport) : Changes s (w.statusInActive p r).toState := by
  unfold Work.statusInActive
  exact ((((((((((h.believeReport _ _).onLink _ _).admitHeldBefore _).comeOnline _).converge _).cond (·.lostStart _ _)).onLink _ _).noteTemperature _ _
    |>.judgeDoor _ _).judgeFaults _ _).cond (·.coolFirstExit _)).rederive _

theorem Changes.statusInPlan (p : Pocket) (r : StatusReport) : Changes s (w.statusInPlan p r).toState := by
  unfold Work.statusInPlan
  dsimp only
  refine ((((h.believeReport _ _).comeOnline _).onLink _ _).cond (·.goFault _ _)).cond fun h => Changes.endWindow ?_
  exact h.withPlan _

theorem Changes.takeStatus (p : Pocket) (r : StatusReport) : Changes s (w.takeStatus p r).toState := by
  unfold Work.takeStatus
  split
  · exact h.endExchange.statusInActive _ _
  · exact h.endExchange.statusInPlan _ _
  · exact h.endExchange.believeReport _ _

theorem Changes.runOnRecord (active : w.part = .active) (p : Pocket) : Changes s (w.runOnRecord p).toState := by
  unfold Work.runOnRecord
  split
  · exact h
  · split
    · dsimp only
      split
      · exact h.onCtx _ _
      · exact (h.mark _ _).onCtx _ _
    · rename_i c _ _
      have spent := h.onCtx p fun c => { c with tumbleGranted := false }
      have part : (w.onCtx p fun c => { c with tumbleGranted := false }).part = .active := by rw [Work.onCtx_part, active]
      dsimp only
      generalize (w.onCtx p fun c => { c with tumbleGranted := false }) = v at spent part ⊢
      have running := spent.cond (c := c.fast.status = .pending) fun h => (h.onFast p fun f => { f with status := .running }).mark .resume p
      refine running.cond (·.heatRequest ?_ _)
      split <;> simp [Work.onFast, Work.onCtx_part, part]

theorem Changes.takeRunAck (p : Pocket) : Changes s (w.takeRunAck p).toState := by
  have acked := h.endExchange.believeMotor p true
  unfold Work.takeRunAck
  dsimp only
  split
  · have online := ((acked.onLink p fun l => { l with startAttempts := 0, runAuthority := false }).admitHeldBefore p).comeOnline p
    generalize Work.comeOnline _ p = v at online ⊢
    split
    · rename_i active
      exact (((online.startWindow _).removeRequest _).runOnRecord (by simpa using active) _).rederive _
    · exact online
  · exact acked

theorem Changes.heatOnRecord (p : Pocket) : Changes s (w.heatOnRecord p).toState := by
  unfold Work.heatOnRecord
  split
  · exact (h.onFast _ _).mark _ _
  · exact h

theorem Changes.takeHeatOnAck (p : Pocket) (e : Entry) : Changes s (w.takeHeatOnAck p e).toState := by
  unfold Work.takeHeatOnAck
  exact (h.endExchange.believeHeat _ _).cond fun h => ((h.admitHeldBefore _).comeOnline _).cond fun h => (h.heatOnRecord _).rederive _

theorem Changes.runRefused (p : Pocket) (e : Entry) : Changes s (w.runRefused p e).toState := by
  unfold Work.runRefused
  dsimp only
  split
  · exact (h.onLink _ _).endExchange.goFault _ _
  · exact (h.onLink _ _).waitRetry _

theorem Changes.heatOnRefused (p : Pocket) (e : Entry) : Changes s (w.heatOnRefused p e).toState := by
  unfold Work.heatOnRefused
  split
  · exact (h.endExchange.admitHeldBefore _).cond fun h => ((h.recordFault _ _).takeHold _ _).rederive _
  · exact h.waitRetry _

theorem Changes.takeRetry (p : Pocket) (e : Entry) : Changes s (w.takeRetry p e).toState := by
  unfold Work.takeRetry
  dsimp only
  repeat' split
  · exact (h.comeOnline _).runRefused _ _
  · exact (h.comeOnline _).heatOnRefused _ _
  · exact h.endExchange

theorem Changes.takeDoorOpen (p : Pocket) (e : Entry) : Changes s (w.takeDoorOpen p e).toState := by
  unfold Work.takeDoorOpen
  exact h.endExchange.cond fun h => (((h.admitHeldBefore _).comeOnline _).cond (·.doorRefusesRun _)).cond fun h => (h.takeHold _ _).rederive _

theorem Changes.takePosted (p : Pocket) (e : Entry) : Changes s (w.takePosted p e).toState := by
  have believed : Changes s (w.endExchange.believePosted p e.kind).toState := by
    unfold Work.believePosted
    split
    · exact h.endExchange.believeMotor _ _
    · exact h.endExchange.believeHeat _ _
    · exact (h.endExchange.believeMotor _ _).believeHeat _ _
    · exact h.endExchange
  unfold Work.takePosted
  exact believed.cond fun h => ((h.admitHeldBefore _).comeOnline _).cond (·.rederive _)

theorem Changes.takeReply (p : Pocket) (e : Entry) (r : Reply) : Changes s (w.takeReply p e r).toState := by
  unfold Work.takeReply
  split
  · exact h.takeStatus _ _
  · exact h
  · exact h.takeRunAck _
  · exact h.takeHeatOnAck _ _
  · exact h.takeDoorOpen _ _
  · exact h.takeDoorOpen _ _
  · exact h.takeRetry _ _
  · exact h.takeRetry _ _
  · exact h.takePosted _ _

theorem Changes.takeBytes (p : Pocket) (b : List Byte) : Changes s (w.takeBytes p b).toState := by
  unfold Work.takeBytes
  repeat' split
  · exact h
  · exact h.takeReply _ _ _
  · exact h

/-! ### The supply -/

theorem Changes.settled : Changes s w.settled.toState := by
  have stopped (x : Supply) (y : Backup) : Changes s ({ w with sup := x, backup := y } : Work).toState := h.same_store rfl rfl rfl rfl rfl
  unfold Work.settled
  dsimp only
  split
  · rename_i hp
    split
    · exact Changes.enterPlan (stopped _ _) (by simp [hp]) _
    · exact stopped _ _
  · rename_i hp
    exact Changes.enterPlan (stopped _ _) (by simp [hp]) _
  · exact stopped _ _

theorem Changes.sortQueue : Changes s w.sortQueue.toState := by
  unfold Work.sortQueue
  dsimp only
  split
  · refine Changes.respond ?_ _ _
    exact h.same_store rfl rfl rfl rfl rfl
  · exact h.same_store rfl rfl rfl rfl rfl

omit h in
@[simp] theorem Work.sortQueue_part (w : Work) : w.sortQueue.part = w.part := by
  unfold Work.sortQueue
  dsimp only
  split <;> rfl

omit h in
@[simp] theorem Work.linkAtWarning_part (w : Work) : w.linkAtWarning.part = w.part := by
  simp [Work.linkAtWarning]

theorem Changes.beginSave : Changes s w.beginSave.toState := by
  have store : (w.enter .save).linkAtWarning.store = w.store := by simp [Work.linkAtWarning, Work.enter]
  have part : (w.enter .save).linkAtWarning.part = .save := by simp [Work.enter]
  unfold Work.beginSave
  dsimp only
  generalize (w.enter .save).linkAtWarning = v at store part ⊢
  have opened (a : Arbiter) (x : Supply) (ha : a.slots = []) :
      Changes s ({ v with arb := a, heat := HeatUnit.reset, plan := Planner.reset, sup := x } : Work).toState :=
    h.tail (.cleared (fun hw => by rw [store]; exact hw) rfl ha)
  split
  · refine Changes.sortQueue ?_
    exact opened _ _ rfl
  · split
    · refine Work.saveNext_changes 40 (Changes.decideMark (Changes.sortQueue ?_)) (by simp [part])
      exact opened _ _ rfl
    · refine Changes.decideMark (Changes.sortQueue ?_)
      exact opened _ _ rfl

theorem Changes.warn : Changes s w.warn.toState := by
  unfold Work.warn
  dsimp only
  split
  · exact h
  · refine Changes.cond ?_ (·.beginSave)
    exact h.withSup _

end

end Sys2Proof.Machine
end
section
/-! SUPPORT. Every command and every timer as a chain of changes, and so every step. -/

namespace Sys2Proof.Machine

/-- A store event that ends an operation of a kind. -/
theorem end_changes {s t : State} {found : Findings} {f : StoreOp → Bool} {done : Running → Work → Work}
    (hd : ∀ r w, Changes s w.toState → Changes s (done r w).toState)
    (e : (powered s fun w => w.endWhere found f done) = .next t) : Changes s t :=
  powered_changes (fun _ h => h.endWhere hd) e

/-! ### The commands -/

section
variable {s t : State}

theorem execMoveEnd_changes {x : Findings} (e : execMoveEnd x s = .next t) : Changes s t := by
  refine powered_changes (fun w h => ?_) e
  have run := Work.runPlain_changes accessLimit (h.meet x)
  generalize Work.runPlain accessLimit (w.meet x) = v at run ⊢
  have all := Work.runAll_changes accessLimit run
  dsimp only
  repeat' split
  · exact h
  · exact h
  · exact h
  · exact all.endMove _ _
  · exact all
  · exact all

theorem execMarkWriteEnd_changes (e : execMarkWriteEnd s = .next t) : Changes s t := by
  refine end_changes (fun r w h => ?_) e
  split
  · rename_i closing _
    have ended := (h.cond (c := closing = true) (·.completePlan)).endOp r
    dsimp only
    generalize Work.endOp _ r = v at ended ⊢
    split
    · rename_i hp
      exact ended.enterActive (by simp [hp.2])
    · exact ended
  · exact h

theorem execSettingsWriteEnd_changes (e : execSettingsWriteEnd s = .next t) : Changes s t := by
  refine end_changes (fun r w h => ?_) e
  split
  · refine (Changes.respond ?_ _ _).endOp _
    exact h.withCtl rfl
  · exact h

theorem execFormatEnd_changes {x : Findings} (e : execFormatEnd x s = .next t) : Changes s t := by
  refine end_changes (fun r w h => (Changes.respond ?_ _ _).endOp _) e
  exact h.same_store rfl rfl rfl rfl rfl

theorem execTranslationReadEnd_changes {x : Findings} (e : execTranslationReadEnd x s = .next t) : Changes s t := by
  refine end_changes (fun r w h => ?_) e
  repeat' split
  · exact (h.translated _ _ _).endOp _
  · exact (h.enqueue _).endOp _
  · exact h.endOp _
  · exact h

theorem execMapRepairEnd_changes {x : Findings} (e : execMapRepairEnd x s = .next t) : Changes s t := by
  refine end_changes (fun r w h => ?_) e
  repeat' split
  · exact (h.translated _ _ _).endOp _
  · exact (h.respond _ _).endOp _
  · exact h

theorem execRemapWriteEnd_changes {x : Findings} (e : execRemapWriteEnd x s = .next t) : Changes s t := by
  refine end_changes (fun r w h => ?_) e
  repeat' split
  · exact ((h.endMapFault _).respond _ _).endOp _
  · exact (h.respond _ _).endOp _
  · exact h

theorem execRetireOperationEnd_changes {x : Findings} (e : execRetireOperationEnd x s = .next t) : Changes s t := by
  refine end_changes (fun r w h => ?_) e
  split
  · exact (h.cond (·.respond _ _)).endOp _
  · exact h

theorem execOpenOperationEnd_changes {x : Findings} (e : execOpenOperationEnd x s = .next t) : Changes s t := by
  refine end_changes (fun r w h => ?_) e
  split
  · exact h.endOpen _ _ _ _ _
  · exact h

theorem execRetireMapWriteEnd_changes {x : Findings} (e : execRetireMapWriteEnd x s = .next t) : Changes s t := by
  refine powered_changes (fun w h => ?_) e
  repeat' split
  · exact (h.meet _).access
  · exact h
  · exact h

theorem execStartScanEnd_changes {x : Findings} (e : execStartScanEnd x s = .next t) : Changes s t := by
  refine powered_changes (fun w h => ?_) e
  split
  · rename_i hp
    exact (h.meet x).startScan (by rw [show (w.meet x).part = .start from hp.1]; decide)
  · exact h

theorem execPatrolRead_changes {x : Findings} (e : execPatrolRead x s = .next t) : Changes s t := by
  refine powered_changes (fun w h => ?_) e
  split
  · exact (h.meet x).patrol
  · exact h

theorem execClockStep_changes (e : execClockStep s = .next t) : Changes s t := by
  refine powered_changes (fun w h => ?_) e
  dsimp only
  refine Changes.cond ?_ (foldl_changes _ (fun _ _ _ h => (h.stepRecord _).stepTimer _) _)
  exact h.withSup _

theorem execLinkFrameSend_changes (e : execLinkFrameSend s = .next t) : Changes s t := by
  refine powered_changes (fun w h => ?_) e
  dsimp only
  repeat' split
  · exact h
  · exact h
  · exact (h.sendEntry _ _).believeAllSafe
  · exact h.sendEntry _ _
  · exact h.removeEntries _

theorem execReplyWindowExpiry_changes (e : execReplyWindowExpiry s = .next t) : Changes s t := by
  refine onExchange_changes (fun w h => ?_) e
  repeat' split
  · exact h
  · exact h.endExchange
  · exact h.silence _ _
  · exact h.endExchange

theorem execStatusArrival_changes {p : Pocket} {x : StatusReply} (e : execStatusArrival p x s = .next t) : Changes s t := by
  refine onExchange_changes (fun w h => ?_) e
  repeat' split
  · exact h.takeBytes _ _
  · exact h
  · exact h.takeStatus _ _

theorem execRunAck_changes {p : Pocket} (e : execRunAck p s = .next t) : Changes s t := by
  refine onExchange_changes (fun w h => ?_) e
  split
  · exact h
  · exact h.takeRunAck _

theorem execHeatOnAck_changes {p : Pocket} (e : execHeatOnAck p s = .next t) : Changes s t := by
  refine onExchange_changes (fun w h => ?_) e
  split
  · exact h
  · exact h.takeHeatOnAck _ _

theorem execNotReadyRetry_changes {p : Pocket} {y : RetryReason} (e : execNotReadyRetry p y s = .next t) : Changes s t := by
  refine onExchange_changes (fun w h => ?_) e
  split
  · exact h
  · exact h.takeRetry _ _

theorem execNotReadyDoorOpen_changes {p : Pocket} (e : execNotReadyDoorOpen p s = .next t) : Changes s t := by
  refine onExchange_changes (fun w h => ?_) e
  split
  · exact h
  · exact h.takeDoorOpen _ _

theorem execPostedReply_changes {p : Pocket} {y : PostedAnswer} (e : execPostedReply p y s = .next t) : Changes s t := by
  refine onExchange_changes (fun w h => ?_) e
  split
  · exact h
  · exact h.takePosted _ _

theorem execStartWindowEnd_changes {p : Pocket} (e : execStartWindowEnd p s = .next t) : Changes s t := by
  refine powered_changes (fun w h => ?_) e
  dsimp only
  repeat' split
  · exact h
  · exact (h.releaseSlot _).makeRequest _ _
  · exact h.releaseSlot _
  · exact h.releaseSlot _

theorem execGrantTimeout_changes {p : Pocket} (e : execGrantTimeout p s = .next t) : Changes s t := by
  refine powered_changes (fun w h => ?_) e
  split
  · exact h
  · exact ((h.releaseSlot _).endAuthority _).cond (·.makeRequest _ _)

theorem execStartGapEnd_changes (e : execStartGapEnd s = .next t) : Changes s t := by
  refine powered_changes (fun w h => ?_) e
  split
  · exact h.ordinary rfl rfl id (HeatUnit.Less.rfl' _) ⟨List.Sublist.refl _, fun _ _ hn => hn⟩
  · exact h

theorem execSagPulse_changes (e : execSagPulse s = .next t) : Changes s t := by
  refine powered_changes (fun w h => ?_) e
  dsimp only
  repeat' split
  · exact h
  · refine Changes.markPart ?_ _
    exact h.withSag _
  · exact h.withSag _

theorem execThrottleTimerExpiry_changes (e : execThrottleTimerExpiry s = .next t) : Changes s t := by
  refine powered_changes (fun w h => ?_) e
  split
  · refine Changes.markPart ?_ _
    exact h.same_store rfl rfl rfl rfl rfl
  · exact h

theorem execSupplyBreak_changes {x : SupplyLine} (e : execSupplyBreak x s = .next t) : Changes s t := by
  unfold execSupplyBreak at e
  split at e
  · refine powered_changes (fun w h => ?_) e
    split
    · exact h.cond fun h => h.withSup _
    · exact h.warn
  · obtain rfl := Host.Outcome.next.inj e
    cases x <;> exact Changes.same_store .refl rfl rfl rfl rfl rfl

theorem execMainsOkReturn_changes {x : SupplyReturn} (e : execMainsOkReturn x s = .next t) : Changes s t := by
  unfold execMainsOkReturn at e
  split at e
  · rename_i l
    obtain rfl := Host.Outcome.next.inj e
    cases l <;> exact Changes.same_store .refl rfl rfl rfl rfl rfl
  · obtain rfl := Host.Outcome.next.inj e
    exact Changes.same_store .refl rfl rfl rfl rfl rfl

theorem execOutageTimerCount_changes (e : execOutageTimerCount s = .next t) : Changes s t := by
  obtain rfl := Host.Outcome.next.inj e
  split
  · exact Changes.same_store .refl rfl rfl rfl rfl rfl
  · exact .refl

/-- A reset clears the heat budget unit and the slots and keeps the store (R154). -/
theorem resetVolatile_changes (s : State) {t : State} (store : t.store = s.store) (heat : t.heat = HeatUnit.reset) (slots : t.arb.slots = []) :
    Changes s t :=
  Relation.ReflTransGen.single (.cleared (fun hw => store ▸ hw) heat slots)

theorem execPowerOn_changes {x : SupplyLevels} (e : execPowerOn x s = .next t) : Changes s t := by
  obtain rfl := Host.Outcome.next.inj e
  refine resetVolatile_changes s ?_ rfl rfl
  split <;> rfl

theorem execResetPin_changes (e : execResetPin s = .next t) : Changes s t := by
  obtain rfl := Host.Outcome.next.inj e
  split
  · exact resetVolatile_changes s rfl rfl rfl
  · exact .refl

theorem execCoreSupplyCollapse_changes (e : execCoreSupplyCollapse s = .next t) : Changes s t := by
  obtain rfl := Host.Outcome.next.inj e
  split
  · exact resetVolatile_changes s rfl rfl rfl
  · exact .refl

theorem execFirstPollRepoll_changes {p : Pocket} (e : execFirstPollRepoll p s = .next t) : Changes s t := by
  refine powered_changes (fun w h => ?_) e
  repeat' split
  · exact h
  · exact h
  · refine Changes.postPoll ?_ _
    exact h.withPlan _

/-- **Every command is a chain of changes.** -/
theorem exec_changes {c : Instr} (e : exec c s = .next t) : Changes s t := by
  cases hr : hostRequest c with
  | some r =>
    rw [exec_request s hr] at e
    exact powered_changes (fun w h => h.requestFrame r) e
  | none =>
    cases c
    case badFrame b => exact powered_changes (fun w h => h.rawFrame b) e
    case droppedRequest => exact powered_changes (fun w h => h.cond fun h => h.withPort _) e
    case fetch n => exact powered_changes (body := fun w => w.fetchFrame n) (fun w h => h.same_store rfl rfl rfl rfl rfl) e
    case storeOperationServe => exact powered_changes (fun w h => h.serveNext) e
    case translationReadEnd x => exact execTranslationReadEnd_changes e
    case staticReadEnd x => exact end_changes (fun r w h => h.endRecordOp r) e
    case staticWriteEnd x => exact end_changes (fun r w h => h.endRecordOp r) e
    case checkpointEnd x => exact end_changes (fun r w h => h.endRecordOp r) e
    case saveWriteEnd x => exact end_changes (fun r w h => h.endRecordOp r) e
    case plannerFrameReadEnd x => exact end_changes (fun r w h => h.endOp r) e
    case moveEnd x => exact execMoveEnd_changes e
    case openOperationEnd x => exact execOpenOperationEnd_changes e
    case retireMapWriteEnd x => exact execRetireMapWriteEnd_changes e
    case retireOperationEnd x => exact execRetireOperationEnd_changes e
    case remapWriteEnd x => exact execRemapWriteEnd_changes e
    case mapRepairEnd x => exact execMapRepairEnd_changes e
    case markWriteEnd => exact execMarkWriteEnd_changes e
    case settingsWriteEnd => exact execSettingsWriteEnd_changes e
    case formatEnd x => exact execFormatEnd_changes e
    case startScanEnd x => exact execStartScanEnd_changes e
    case patrolRead x => exact execPatrolRead_changes e
    case clockStep => exact execClockStep_changes e
    case heatExit p => exact powered_changes (fun w h => h.cond fun h => h.heatExit p) e
    case coolExit p => exact powered_changes (fun w h => h.cond fun h => h.coolExit p) e
    case creaseWindowEnd p => exact powered_changes (fun w h => h.cond fun h => h.endCrease p) e
    case tumbleEnd p => exact powered_changes (fun w h => h.cond fun h => h.endTumble p) e
    case tumbleDue p => exact powered_changes (fun w h => h.cond fun h => h.makeRequest p _) e
    case checkpointTimerExpiry p => exact powered_changes (fun w h => h.cond fun h => h.timerAtZero p) e
    case linkFrameSend => exact execLinkFrameSend_changes e
    case replyWindowExpiry => exact execReplyWindowExpiry_changes e
    case statusArrival p x => exact execStatusArrival_changes e
    case runAck p => exact execRunAck_changes e
    case heatOnAck p => exact execHeatOnAck_changes e
    case notReadyRetry p x => exact execNotReadyRetry_changes (y := x) e
    case notReadyDoorOpen p => exact execNotReadyDoorOpen_changes e
    case postedReply p x => exact execPostedReply_changes (y := x) e
    case replyDiscarded => exact powered_changes (fun w h => h) e
    case retryTimeReached p => exact powered_changes (fun w h => h.setQueue _) e
    case pollTurn p => exact powered_changes (fun w h => h.cond fun h => h.postPoll p) e
    case offlinePollTimerExpiry p => exact powered_changes (fun w h => h.cond fun h => (h.onLink p _).postProbe p) e
    case startWindowEnd p => exact execStartWindowEnd_changes e
    case grantTimeout p => exact execGrantTimeout_changes e
    case startGapEnd => exact execStartGapEnd_changes e
    case sagPulse => exact execSagPulse_changes e
    case sagWindowExpiry => exact powered_changes (fun w h => h.cond fun h => h.withSag _) e
    case throttleTimerExpiry => exact execThrottleTimerExpiry_changes e
    case powerFailWarning => exact powered_changes (fun w h => h.warn) e
    case supplyBreak x => exact execSupplyBreak_changes e
    case settleTimeReached => exact powered_changes (fun w h => h.cond fun h => h.settled) e
    case outageTimerCount => exact execOutageTimerCount_changes e
    case vbkRetentionLoss =>
      obtain rfl := Host.Outcome.next.inj e
      exact Changes.same_store .refl rfl rfl rfl rfl rfl
    case powerOn x => exact execPowerOn_changes e
    case resetPin => exact execResetPin_changes e
    case coreSupplyCollapse => exact execCoreSupplyCollapse_changes e
    case firstPollWindowEnd p => exact powered_changes (fun w h => h.cond fun h => h.endWindow) e
    case firstPollRepoll p => exact execFirstPollRepoll_changes e
    case mainsOkReturn x => exact execMainsOkReturn_changes e
    all_goals cases hr

/-! ### The timers -/

theorem tickStore_changes (s : State) : Changes s (tickStore s).1 := by
  unfold tickStore
  repeat' split
  · exact .refl
  · exact .refl
  · exact .refl
  · exact (Changes.access (w := Work.begin s) .refl).finish
  all_goals exact .refl

theorem tickSlots_changes (s : State) : Changes s (tickSlots s).1 := by
  unfold tickSlots
  split
  · refine Changes.ordinary .refl rfl rfl id (HeatUnit.Less.rfl' _) ⟨?_, fun _ _ hn => hn⟩
    show List.Sublist ((s.arb.slots.map _).map _) (s.arb.slots.map _)
    rw [List.map_map]
    exact List.Sublist.refl _
  · exact .refl

/-- **Every timer is a chain of changes.** -/
theorem ticker_changes {k : Ticker} (h : k ∈ [tickBackup, tickSettle, tickClock, tickStore, tickPatrol, tickExchange, tickRetries,
    tickPolls, tickOffline, tickSlots, tickSag, tickWindow]) (s : State) : Changes s (k s).1 := by
  simp only [List.mem_cons, List.not_mem_nil, or_false] at h
  rcases h with rfl | rfl | rfl | rfl | rfl | rfl | rfl | rfl | rfl | rfl | rfl | rfl
  case inr.inr.inr.inl => exact tickStore_changes s
  case inr.inr.inr.inr.inr.inr.inr.inr.inr.inl => exact tickSlots_changes s
  all_goals
    simp only [tickBackup, tickSettle, tickClock, tickPatrol, tickExchange, tickRetries, tickPolls, tickOffline, tickSag, tickWindow]
    repeat' split
  all_goals exact Changes.same_store .refl rfl rfl rfl rfl rfl

/-- **Every step is a chain of changes**, so that what every change keeps every step keeps, where the waiting commands have no
part in it. -/
theorem step_keeps_of_changes {P : State → Prop} (hP : ∀ s t, Change s t → P s → P t) (e : step s = .next t) (h : P s) : P t :=
  step_keeps
    (fun s _ hs => Changes.keeps (s := s) hP (Changes.same_store .refl rfl rfl rfl rfl rfl) hs)
    (fun _ _ _ hs e => (exec_changes e).keeps hP hs)
    (fun _ hk s hs => (ticker_changes hk s).keeps hP hs) h e

end

end Sys2Proof.Machine
end
section
/-! SUPPORT. The part's invariants: what every change keeps. -/

namespace Sys2Proof.Machine

/-! ### The store (log entry 1) -/

theorem Change.storeWf {s t : State} (h : Change s t) (hs : s.storeWf) : t.storeWf := by
  unfold State.storeWf at *
  cases h with
  | ordinary part loaded store heat arb => exact store hs
  | reserve p active part loaded store arb heat fits => rwa [store]
  | wait p active part loaded store arb reserved lists => rwa [store]
  | grant p active part loaded store heat room asked holders requests => rwa [store]
  | outside out store heat slots => exact store hs
  | cleared store heat slots => exact store hs

/-- Settles O57: every command and every timer is a chain of changes, none of which leaves the form. -/
theorem storeFormIsKept : Obligations.StoreFormIsKept := by
  unfold Obligations.StoreFormIsKept
  exact fun s t hs e => step_keeps_of_changes (fun _ _ c h => c.storeWf h) e hs

/-! ### The heat budgets (R126 to R132) -/

section
variable {s t : State}

theorem State.phaseOf_of_loaded (h : t.ctl.loaded = s.ctl.loaded) (p : Pocket) : t.phaseOf p = s.phaseOf p := by
  unfold State.phaseOf State.setting; rw [h]

theorem State.budget_of_loaded (h : t.ctl.loaded = s.ctl.loaded) (x : SupplyPhase) : t.budget x = s.budget x := by
  unfold State.budget State.setting; rw [h]

/-- What the pockets of a phase have reserved. -/
theorem State.reservedSum_congr (h : t.ctl.loaded = s.ctl.loaded) (hr : t.heat.reserved = s.heat.reserved) (x : SupplyPhase) :
    t.reservedSum x = s.reservedSum x := by
  unfold State.reservedSum
  simp only [State.phaseOf_of_loaded h, hr]

/-- Less is reserved when reservations are lost. -/
theorem State.reservedSum_le_of_less (h : t.ctl.loaded = s.ctl.loaded) (hl : s.heat.Less t.heat) (x : SupplyPhase) :
    t.reservedSum x ≤ s.reservedSum x := by
  unfold State.reservedSum
  simp only [State.phaseOf_of_loaded h]
  refine List.sum_le_sum fun p _ => ?_
  rcases hl.reserved p with e | e <;> simp [e]

/-- A sum over distinct pockets in which one value alone has changed. -/
theorem sum_map_le_of_eq_off {f g : Pocket → Nat} {p : Pocket} (h : ∀ q, q ≠ p → g q = f q) :
    ∀ l : List Pocket, l.Nodup → (l.map g).sum ≤ (l.map f).sum + if p ∈ l then g p else 0
  | [], _ => Nat.le_refl _
  | q :: l, hn => by
    obtain ⟨hq, hl⟩ := List.nodup_cons.1 hn
    have ih := sum_map_le_of_eq_off h l hl
    simp only [List.map_cons, List.sum_cons, List.mem_cons]
    by_cases e : p = q
    · subst e
      rw [if_neg hq] at ih
      rw [if_pos (.inl rfl)]
      omega
    · rw [h q (Ne.symm e)]
      simp only [e, false_or]
      omega

/-- A reservation adds its draw at most, and to its own phase alone. -/
theorem State.reservedSum_upd_le (h : t.ctl.loaded = s.ctl.loaded) {p : Pocket} {n : Nat}
    (hr : t.heat.reserved = upd s.heat.reserved p (some n)) (x : SupplyPhase) :
    t.reservedSum x ≤ s.reservedSum x + if x = s.phaseOf p then n else 0 := by
  have own : t.heat.reserved[p] = some n := by rw [hr]; exact upd_self _ _ _
  have other : ∀ q, q ≠ p → (t.heat.reserved[q]).getD 0 = (s.heat.reserved[q]).getD 0 := fun q e => by
    rw [hr]; exact congrArg (fun x : Option Nat => x.getD 0) (upd_other _ _ e)
  have mem : p ∈ allPockets.filter (fun q => s.phaseOf q == x) ↔ x = s.phaseOf p := by
    rw [List.mem_filter, beq_iff_eq, eq_comm]
    exact and_iff_right (List.mem_finRange p)
  have sum := sum_map_le_of_eq_off other (allPockets.filter fun q => s.phaseOf q == x) ((List.nodup_finRange 32).filter _)
  simp only [mem, own, Option.getD_some] at sum
  unfold State.reservedSum
  simp only [State.phaseOf_of_loaded h]
  exact sum

end

theorem HeatUnit.reset_reservedSum {s : State} (h : s.heat = HeatUnit.reset) (x : SupplyPhase) : s.reservedSum x = 0 := by
  unfold State.reservedSum
  rw [h]
  refine List.sum_eq_zero fun n hn => ?_
  obtain ⟨p, -, rfl⟩ := List.mem_map.1 hn
  simp [HeatUnit.reset]

/-- With the unit cleared the reservations are within every budget. -/
theorem State.heatKept_of_reset {s : State} (h : s.heat = HeatUnit.reset) : s.heatKept := by
  refine ⟨fun x => ?_, fun p x hp => ?_, fun _ => h⟩
  · rw [HeatUnit.reset_reservedSum h]; exact Nat.zero_le _
  · unfold State.waitList at hp
    rw [h] at hp
    cases x <;> cases hp

theorem HeatUnit.eq_reset_of_less {a b : HeatUnit} (h : a.Less b) (ha : a = HeatUnit.reset) : b = HeatUnit.reset := by
  obtain ⟨reserved, waitA, waitB, waitC⟩ := h
  obtain ⟨r, l1, l2, l3⟩ := b
  subst ha
  have hr : r = HeatUnit.reset.reserved := by
    refine Vector.ext fun i hi => ?_
    rcases reserved ⟨i, hi⟩ with e | e
    · exact e
    · exact e.trans (by simp [HeatUnit.reset])
  obtain rfl : l1 = [] := List.subset_nil.1 waitA
  obtain rfl : l2 = [] := List.subset_nil.1 waitB
  obtain rfl : l3 = [] := List.subset_nil.1 waitC
  rw [hr]
  rfl

theorem HeatUnit.Less.waitList_subset {s t : State} (h : s.heat.Less t.heat) (x : SupplyPhase) : t.waitList x ⊆ s.waitList x := by
  cases x
  · exact h.waitA
  · exact h.waitB
  · exact h.waitC

theorem Change.heatKept {s t : State} (h : Change s t) (hs : s.heatKept) : t.heatKept := by
  obtain ⟨within, own, outside⟩ := hs
  cases h with
  | ordinary part loaded store heat arb =>
    refine ⟨fun x => ?_, fun p x hp => ?_, fun hn => ?_⟩
    · rw [State.budget_of_loaded loaded]
      exact (State.reservedSum_le_of_less loaded heat x).trans (within x)
    · rw [State.phaseOf_of_loaded loaded]
      exact own p x (heat.waitList_subset x hp)
    · exact HeatUnit.eq_reset_of_less heat (outside (part ▸ hn))
  | reserve p active part loaded store arb heat fits =>
    have lists (x : SupplyPhase) : t.waitList x = s.waitList x := by unfold State.waitList; rw [heat]
    have fits' : s.draw p = 0 ∨ s.reservedSum (s.phaseOf p) + s.draw p ≤ s.budget (s.phaseOf p) := by
      refine fits.imp id fun ⟨x, hx, hf⟩ => ?_
      obtain rfl : x = s.phaseOf p := hx.elim id fun hm => (own p x hm).symm
      exact hf
    refine ⟨fun x => ?_, fun q x hq => ?_, fun hn => absurd (part.trans active) hn⟩
    · rw [State.budget_of_loaded loaded]
      refine (State.reservedSum_upd_le loaded (by rw [heat]) x).trans ?_
      have := within x
      split
      · rename_i e
        subst e
        rcases fits' with f | f <;> omega
      · omega
    · rw [State.phaseOf_of_loaded loaded]
      exact own q x (lists x ▸ hq)
  | wait p active part loaded store arb reserved lists =>
    refine ⟨fun x => ?_, fun q x hq => ?_, fun hn => absurd (part.trans active) hn⟩
    · rw [State.budget_of_loaded loaded, State.reservedSum_congr loaded reserved]
      exact within x
    · rw [State.phaseOf_of_loaded loaded]
      rw [lists] at hq
      split at hq
      · rename_i e
        rcases List.mem_append.1 hq with hq | hq
        · exact own q x hq
        · rw [List.mem_singleton.1 hq, e]
      · exact own q x hq
  | grant p active part loaded store heat room asked holders requests =>
    refine ⟨fun x => ?_, fun q x hq => ?_, fun hn => absurd (part.trans active) hn⟩
    · rw [State.budget_of_loaded loaded, State.reservedSum_congr loaded (by rw [heat])]
      exact within x
    · rw [State.phaseOf_of_loaded loaded]
      refine own q x ?_
      unfold State.waitList at *
      rwa [heat] at hq
  | outside out store heat slots => exact State.heatKept_of_reset (heat.trans (outside out))
  | cleared store heat slots => exact State.heatKept_of_reset heat

/-- Settles O58: a reservation is made only where it fits the budget of its phase, a pocket joins only the wait list of its phase,
and every other change loses reservations and places. -/
theorem heatBudgetIsKept : Obligations.HeatBudgetIsKept := by
  unfold Obligations.HeatBudgetIsKept
  exact fun s t hs e => step_keeps_of_changes (fun _ _ c h => c.heatKept h) e hs

/-! ### The start slots (R112, R119 to R125) -/

theorem Arbiter.length_holders (a : Arbiter) : a.holders.length = a.slots.length := List.length_map _

theorem Arbiter.slots_eq_nil {a : Arbiter} (h : a.holders = []) : a.slots = [] := List.map_eq_nil_iff.1 h

/-- Without slots nothing can go wrong. -/
theorem State.slotsKept_of_nil {s : State} (h : s.arb.slots = []) : s.slotsKept := by
  have none : s.arb.holders = [] := by unfold Arbiter.holders; rw [h]; rfl
  refine ⟨⟨none ▸ List.nodup_nil, fun p hp => ?_⟩, ?_, fun _ => h⟩
  · rw [none] at hp
    cases hp
  · rw [h]; exact Nat.zero_le _

theorem Change.slotsKept {s t : State} (h : Change s t) (hs : s.slotsKept) : t.slotsKept := by
  obtain ⟨⟨once, apart⟩, few, outside⟩ := hs
  rw [← Arbiter.length_holders] at few
  have same (arb : t.arb = s.arb) (active : s.part = .active) (part : t.part = s.part) (loaded : t.ctl.loaded = s.ctl.loaded) :
      t.slotsKept := by
    refine ⟨arb ▸ ⟨once, apart⟩, ?_, fun hn => absurd (part.trans active) hn⟩
    rw [arb, ← Arbiter.length_holders]
    simpa only [State.setting, loaded] using few
  cases h with
  | ordinary part loaded store heat arb =>
    refine ⟨⟨once.sublist arb.holders, fun p hp => arb.requests p hp (apart p (arb.holders.subset hp))⟩, ?_, fun hn => ?_⟩
    · rw [← Arbiter.length_holders]
      refine arb.holders.length_le.trans ?_
      simpa only [State.setting, loaded] using few
    · refine Arbiter.slots_eq_nil (List.sublist_nil.1 ?_)
      have := arb.holders
      rwa [Arbiter.holders.eq_1 s.arb, outside (part ▸ hn)] at this
  | reserve p active part loaded store arb heat fits => exact same arb active part loaded
  | wait p active part loaded store arb reserved lists => exact same arb active part loaded
  | grant p active part loaded store heat room asked holders requests =>
    have free : p ∉ s.arb.holders := fun hp => asked (apart p hp)
    refine ⟨⟨?_, fun q hq => ?_⟩, ?_, fun hn => absurd (part.trans active) hn⟩
    · rw [holders]
      exact List.nodup_append.2 ⟨once, List.nodup_singleton _, fun a ha b hb => by
        rintro rfl
        exact free (List.mem_singleton.1 hb ▸ ha)⟩
    · rw [requests]
      by_cases e : q = p
      · subst e; exact upd_self _ _ _
      · rw [holders] at hq
        refine (upd_other _ _ e).trans (apart q ?_)
        exact (List.mem_append.1 hq).resolve_right fun hm => e (List.mem_singleton.1 hm)
    · rw [← Arbiter.length_holders, holders, List.length_append, Arbiter.length_holders, State.setting, loaded]
      exact room
  | outside out store heat slots => exact State.slotsKept_of_nil (slots.trans (outside out))
  | cleared store heat slots => exact State.slotsKept_of_nil slots

/-- Settles O59: a slot is granted only where one is free, to a pocket with a request, which then leaves the set; every other
change releases slots or leaves the requests of their holders. -/
theorem startSlotsAreKept : Obligations.StartSlotsAreKept := by
  unfold Obligations.StartSlotsAreKept
  exact fun s t hs e => step_keeps_of_changes (fun _ _ c h => c.slotsKept h) e hs

/-- Settles O60: nothing is reserved, granted or failed at reset. -/
theorem invariantsHoldAtReset : Obligations.InvariantsHoldAtReset := by
  unfold Obligations.InvariantsHoldAtReset
  exact ⟨Store.unformatted_wf, State.heatKept_of_reset rfl, State.slotsKept_of_nil rfl⟩

/-! ### A step on a queue of commands (log entry 6) -/

/-- Settles O1. -/
theorem stepTakesTheFrontCommand : Obligations.StepTakesTheFrontCommand := by
  unfold Obligations.StepTakesTheFrontCommand
  intro c rest s h
  unfold step
  rw [h]

end Sys2Proof.Machine
end
section
/-! SUPPORT. Frames read back: the CRC-8 (R198), the REQUEST frames (section 11.2) and the replies of the pocket boards
(section 11.4). -/

namespace Sys2Proof.Machine

/-! ### The check code is exact (R198) -/

theorem crcBit_eq_zero : ∀ x : Byte, crcBit x = 0 ↔ x = 0 := by decide

theorem crcByte_eq_zero (c b : Byte) : crcByte c b = 0 ↔ b = c := by
  simp only [crcByte, crcBit_eq_zero]
  exact BitVec.xor_eq_zero_iff.trans eq_comm

theorem crc8_concat_eq_zero (bs : List Byte) (c : Byte) : crc8 (bs ++ [c]) = 0 ↔ c = crc8 bs := by
  rw [crc8_append]
  exact crcByte_eq_zero _ _

theorem crc8_withCrc (bs : List Byte) : crc8 (withCrc bs) = 0 := (crc8_concat_eq_zero _ _).2 rfl

/-! ### REQUEST frames -/

/-- A frame whose length field tells its payload and whose CRC is good is read by its code. -/
theorem readFrame_withCrc {code pocket len : Byte} {payload : List Byte} (hl : len.toNat = payload.length) (h24 : payload.length ≤ 24) :
    readFrame (withCrc (code :: pocket :: len :: payload)) = readRequest code.toNat pocket.toNat payload := by
  have good := crc8_withCrc (code :: pocket :: len :: payload)
  unfold withCrc at *
  unfold readFrame
  simp only [List.cons_append] at *
  have whole : (payload ++ [crc8 (code :: pocket :: len :: payload)]).take (len.toNat + 1) = payload ++ [crc8 (code :: pocket :: len :: payload)] :=
    List.take_of_length_le (by simp [hl])
  rw [if_neg (by simp [hl]; omega), if_neg (by rw [whole]; exact not_not_intro good), hl, List.take_left]

/-- A request code fits its field. -/
theorem reqCode_toNat (r : HostReq) : (BitVec.ofNat 8 (reqCode r)).toNat = reqCode r := by cases r <;> rfl

theorem beBytes_one (n : Nat) : beBytes 1 n = [BitVec.ofNat 8 n] := by simp [beBytes]

/-- A frame is read by its code, pocket field and payload. -/
theorem readFrame_reqFrame (r : HostReq) :
    readFrame (reqFrame r) = readRequest (reqCode r) (BitVec.ofNat 8 (reqPocketField r)).toNat (reqPayload r) := by
  have short := Laws.CommandOperands.payload_short r
  have code := reqCode_toNat r
  unfold reqFrame
  simp only [beBytes_one, List.cons_append, List.nil_append]
  rw [readFrame_withCrc (by rw [BitVec.toNat_ofNat]; omega) short, code]

/-- A mask is read back from its four bytes. -/
theorem beNat_beBytes_mask (m : Mask) : BitVec.ofNat 32 (beNat (beBytes 4 m.toNat)) = m := by
  have small : m.toNat % 256 ^ 4 = m.toNat := Nat.mod_eq_of_lt (by have := m.isLt; omega)
  rw [beNat_beBytes, small, BitVec.ofNat_toNat, BitVec.setWidth_eq]

/-- The fields of OPEN are read from its payload. -/
theorem readRequest_open (p : Nat) (a : OpenArgs) (h : openFits a = true) :
    readRequest 1 p (reqPayload (.openRecord p a)) = .request (.openRecord p a) := by
  obtain ⟨level, options, heat, cool, plan⟩ := a
  simp only [openFits, Bool.and_eq_true] at h
  obtain ⟨⟨⟨hl, hh⟩, hc⟩, hplan⟩ := h
  cases plan with
  | none =>
    simp only [reqPayload, beBytes_one]
    have read : readRequest 1 p ([BitVec.ofNat 8 level] ++ [options] ++ beBytes 2 heat ++ beBytes 2 cool ++ []) =
      .request (.openRecord p ⟨(BitVec.ofNat 8 level).toNat, options, beNat (beBytes 2 heat), beNat (beBytes 2 cool), none⟩) := rfl
    rw [read, byte_of_fits hl, beNat_beBytes_of_fits hh, beNat_beBytes_of_fits hc]
  | some c =>
    obtain ⟨tumbles, interval, length, window⟩ := c
    simp only [Option.map_some, Option.getD_some, planFits, Bool.and_eq_true] at hplan
    obtain ⟨⟨⟨ht, hi⟩, hn⟩, hw⟩ := hplan
    simp only [reqPayload, planBytes, beBytes_one]
    have read : readRequest 1 p ([BitVec.ofNat 8 level] ++ [options] ++ beBytes 2 heat ++ beBytes 2 cool
        ++ ([BitVec.ofNat 8 tumbles] ++ beBytes 2 interval ++ [BitVec.ofNat 8 length] ++ beBytes 2 window)) =
      .request (.openRecord p ⟨(BitVec.ofNat 8 level).toNat, options, beNat (beBytes 2 heat), beNat (beBytes 2 cool),
        some ⟨(BitVec.ofNat 8 tumbles).toNat, beNat (beBytes 2 interval), (BitVec.ofNat 8 length).toNat, beNat (beBytes 2 window)⟩⟩) := rfl
    rw [read, byte_of_fits hl, beNat_beBytes_of_fits hh, beNat_beBytes_of_fits hc, byte_of_fits ht, beNat_beBytes_of_fits hi,
      byte_of_fits hn, beNat_beBytes_of_fits hw]

/-- Settles O2: each request is read by its own code, and each of its fields from its bytes. -/
theorem requestFramesReadBack : Obligations.RequestFramesReadBack := by
  unfold Obligations.RequestFramesReadBack
  intro r h
  rw [readFrame_reqFrame]
  cases r with
  | openRecord p a =>
    obtain ⟨hp, ha⟩ := (Bool.and_eq_true _ _).mp h
    simp only [reqCode, reqPocketField, byte_of_fits hp, readRequest_open p a ha]
  | extend p n =>
    obtain ⟨hp, hn⟩ := (Bool.and_eq_true _ _).mp h
    have read : readRequest 3 p (beBytes 2 n) = .request (.extend p (beNat (beBytes 2 n))) := rfl
    simp only [reqCode, reqPocketField, reqPayload, byte_of_fits hp, read, beNat_beBytes_of_fits hn]
  | setHeat p n =>
    obtain ⟨hp, hn⟩ := (Bool.and_eq_true _ _).mp h
    simp only [reqCode, reqPocketField, reqPayload, beBytes_one, readRequest_setHeat, byte_of_fits hp, byte_of_fits hn]
  | format g n =>
    obtain ⟨hg, hn⟩ := (Bool.and_eq_true _ _).mp h
    simp only [reqCode, reqPayload, beBytes_one, List.singleton_append, readRequest_format, byte_of_fits hg, byte_of_fits hn]
  | setSetting i v =>
    obtain ⟨hi, hv⟩ := (Bool.and_eq_true _ _).mp h
    have read (p : Nat) : readRequest 20 p ([BitVec.ofNat 8 i] ++ beBytes 4 v) = .request (.setSetting (BitVec.ofNat 8 i).toNat (beNat (beBytes 4 v))) := rfl
    simp only [reqCode, reqPayload, beBytes_one, read, byte_of_fits hi, beNat_beBytes_of_fits hv]
  | getSetting i => simp only [reqCode, reqPayload, beBytes_one, readRequest_getSetting, byte_of_fits (show fits 1 i = true from h)]
  | holdMask x y =>
    have read (p : Nat) : readRequest 11 p (beBytes 4 x.toNat ++ beBytes 4 y.toNat) =
      .request (.holdMask (BitVec.ofNat 32 (beNat (beBytes 4 x.toNat))) (BitVec.ofNat 32 (beNat (beBytes 4 y.toNat)))) := rfl
    simp only [reqCode, reqPayload, read, beNat_beBytes_mask]
  | start p | endHeat p | setOptions p x y | retire p | lookup p | hold p | release p | clearPocket p | remap p =>
    simp [reqCode, reqPocketField, reqPayload, byte_of_fits (show fits 1 p = true from h)]
  | status | events | storeReport | clearLatch | enterCommission | leaveCommission => simp [reqCode, reqPayload]

/-- Settles O4: the frame is read as its request, and the command is that request. -/
theorem rawRequestFrameIsTheRequest : Obligations.RawRequestFrameIsTheRequest := by
  unfold Obligations.RawRequestFrameIsTheRequest
  intro c r s hr fit
  rw [exec_request s hr]
  show (powered s fun w => w.rawFrame (reqFrame r)) = _
  simp only [Work.rawFrame, requestFramesReadBack r fit]

/-! ### Replies of a pocket board (R84, R85) -/

theorem pocketByte_toNat (p : Pocket) : (BitVec.ofNat 8 p.val).toNat = p.val := by
  have := p.isLt
  rw [BitVec.toNat_ofNat]
  omega

/-- A reply of the pocket, well formed, is read by its kind and payload. -/
theorem readReply_withCrc (p : Pocket) (k : CommandKind) (kind : Byte) (pl : List Byte) :
    readReply p k (withCrc (BitVec.ofNat 8 p.val :: kind :: pl)) =
      (readReplyBody kind.toNat pl).bind fun r => if r.expectedBy k then some r else none := by
  have good := crc8_withCrc (BitVec.ofNat 8 p.val :: kind :: pl)
  unfold withCrc at *
  unfold readReply
  simp only [List.cons_append] at *
  rw [if_neg (by rw [pocketByte_toNat, good]; simp)]
  simp only [List.length_append, List.length_singleton, Nat.add_sub_cancel, List.take_left']
  cases readReplyBody kind.toNat pl <;> rfl

/-- A reply whose kind the command expects is good (R85). -/
theorem readReply_expected (p : Pocket) {k : CommandKind} {kind : Byte} {pl : List Byte} {r : Reply} (hb : readReplyBody kind.toNat pl = some r)
    (he : r.expectedBy k = true) : readReply p k (withCrc (BitVec.ofNat 8 p.val :: kind :: pl)) = some r := by
  rw [readReply_withCrc, hb]
  exact if_pos he

theorem readReply_ack (p : Pocket) {k : CommandKind} (hk : k ≠ .poll) :
    readReply p k (withCrc [BitVec.ofNat 8 p.val, 0x82]) = some .ack :=
  readReply_expected p rfl (bne_iff_ne.2 hk)

theorem readReply_notReady (p : Pocket) {k : CommandKind} (hk : k ≠ .poll) {n : Byte} {x : NotReady}
    (hn : readReplyBody 0x83 [n] = some (.notReady x)) : readReply p k (withCrc [BitVec.ofNat 8 p.val, 0x83, n]) = some (.notReady x) :=
  readReply_expected p hn (bne_iff_ne.2 hk)

theorem readReply_status (p : Pocket) (a b : Byte) :
    readReply p .poll (withCrc [BitVec.ofNat 8 p.val, 0x81, a, b]) = some (.status (readStatus a b)) :=
  readReply_expected p rfl rfl

/-- A reply that another pocket's board sends is not good. -/
theorem readReply_other {p q : Pocket} (h : q ≠ p) (k : CommandKind) (bs : List Byte) :
    readReply q k (BitVec.ofNat 8 p.val :: bs) = none := by
  unfold readReply
  cases bs with
  | nil => rfl
  | cons kind rest =>
    dsimp only
    exact if_pos (.inr (.inl fun e => h (Fin.ext (e.symm.trans (pocketByte_toNat p)))))

/-- A reply that fails a test of R84 is not good. -/
theorem readReply_bad {p : Pocket} {bs : List Byte} (k : CommandKind)
    (h : crc8 bs ≠ 0 ∨ bs.length < 3 ∨ bs.head? ≠ some (BitVec.ofNat 8 p.val)) : readReply p k bs = none := by
  unfold readReply
  split
  · rename_i address kind rest
    have head (e : address.toNat = p.val) : address = BitVec.ofNat 8 p.val := BitVec.eq_of_toNat_eq (e.trans (pocketByte_toNat p).symm)
    refine if_pos (h.imp id fun h => h.symm.imp (fun hh e => hh (congrArg some (head e))) fun hl => ?_)
    have : rest.length + 2 < 3 := hl
    omega
  · rfl

section
variable {s : State} {p : Pocket} {e : Entry}

/-- The exchange under way, as a command that expects its kind finds it. -/
theorem State.exchange_of_exchanging (h : s.exchanging p e) {f : CommandKind → Bool} (hf : f e.kind = true) : s.exchange p f = some e := by
  obtain ⟨-, -, inFlight, pocket⟩ := h
  simp only [State.exchange, inFlight]
  exact if_pos ⟨pocket, hf⟩

/-- A good reply in the reply window is taken as its kind requires. -/
theorem exec_statusArrival_bytes (h : s.exchanging p e) {bs : List Byte} {r : Reply} (hr : readReply p e.kind bs = some r) :
    exec (.statusArrival p (.bytes bs)) s = onExchange s fun w => w.takeReply p e r := by
  have found : (Work.begin s).exchange p (fun _ => true) = some e := State.exchange_of_exchanging (s := s) h rfl
  show (onExchange s fun w => w.takeBytes p bs) = _
  rw [onExchange_on h.1, onExchange_on h.1]
  simp only [Work.takeBytes, found, hr]

/-- A broadcast waits while an exchange is under way (R111). -/
theorem Work.sendBroadcast_of_inFlight {w : Work} {e : Entry} (h : w.inFlight = some e) : w.sendBroadcast = w := by
  unfold Work.sendBroadcast
  exact if_neg (by simp [h])

/-- Any other reply is discarded (R84). -/
theorem exec_statusArrival_discarded (h : s.exchanging p e) {bs : List Byte} (hr : readReply p e.kind bs = none) :
    exec (.statusArrival p (.bytes bs)) s = .next s := by
  have found : (Work.begin s).exchange p (fun _ => true) = some e := State.exchange_of_exchanging (s := s) h rfl
  show (onExchange s fun w => w.takeBytes p bs) = _
  rw [onExchange_on h.1]
  simp only [Work.takeBytes, found, hr]
  rw [Work.sendBroadcast_of_inFlight (w := Work.begin s) h.2.2.1, Work.finish_of_quiet _ rfl]
  rfl

/-- A command that ends the exchange under way acts on its entry. -/
theorem onExchange_exchange (h : s.exchanging p e) {f : CommandKind → Bool} (hf : f e.kind = true) (body : Entry → Work → Work) :
    (onExchange s fun w => match w.exchange p f with | none => w | some e => body e w) = onExchange s fun w => body e w := by
  have found : (Work.begin s).exchange p f = some e := State.exchange_of_exchanging (s := s) h hf
  rw [onExchange_on h.1, onExchange_on h.1]
  simp only [found]

end

/-- Settles O3: the check is exact since the CRC-8 step is one-to-one, and a good reply is taken as its own command is. -/
theorem checkAndRepliesReadBack : Obligations.CheckAndRepliesReadBack := by
  unfold Obligations.CheckAndRepliesReadBack
  refine ⟨crc8_concat_eq_zero, fun p k a b => ⟨readReply_status p a b, readReply_ack p, fun hk => readReply_notReady p hk rfl,
    fun hk => readReply_notReady p hk rfl, fun hk => readReply_notReady p hk rfl, fun q hq => readReply_other hq _ _⟩, ?_⟩
  · intro p e a b bs s h
    refine ⟨fun hk => ?_, fun hk => ?_, fun hk => ?_, fun hk => ?_, fun hk => ?_, fun hb => ?_⟩
    · refine (exec_statusArrival_bytes h (r := .status (readStatus a b)) (hk ▸ readReply_status p a b)).trans (Eq.trans ?_ (onExchange_exchange h (f := (· == .poll)) (by simp [hk]) fun _ w => w.takeStatus p (readStatus a b)).symm)
      simp only [Work.takeReply, hk]
    · refine (exec_statusArrival_bytes h (readReply_ack p (by simp [hk]))).trans (Eq.trans ?_ (onExchange_exchange h (f := (· == .run)) (by simp [hk]) fun _ w => w.takeRunAck p).symm)
      simp only [Work.takeReply, hk]
    · refine (exec_statusArrival_bytes h (readReply_ack p (by simp [hk]))).trans (Eq.trans ?_ (onExchange_exchange h (f := (· == .heatOn)) (by simp [hk]) fun e w => w.takeHeatOnAck p e).symm)
      simp only [Work.takeReply, hk]
    · have notPoll : e.kind ≠ .poll := by rcases hk with hk | hk <;> simp [hk]
      have retried := onExchange_exchange h (f := fun k => k == .run || k == .heatOn) (by simpa using hk) fun e w => w.takeRetry p e
      refine ⟨?_, ?_, ?_⟩
      · refine (exec_statusArrival_bytes h (readReply_notReady p notPoll (n := 1) rfl)).trans (Eq.trans ?_ (onExchange_exchange h (f := fun k => k == .run || k == .heatOn) (by simpa using hk) fun e w => w.takeDoorOpen p e).symm)
        rcases hk with hk | hk <;> simp only [Work.takeReply, hk]
      · refine (exec_statusArrival_bytes h (readReply_notReady p notPoll (n := 2) rfl)).trans (Eq.trans ?_ retried.symm)
        rcases hk with hk | hk <;> simp only [Work.takeReply, hk]
      · refine (exec_statusArrival_bytes h (readReply_notReady p notPoll (n := 3) rfl)).trans (Eq.trans ?_ retried.symm)
        rcases hk with hk | hk <;> simp only [Work.takeReply, hk]
    · have notPoll : e.kind ≠ .poll := by rcases hk with hk | hk | hk | hk <;> simp [hk]
      have posted := onExchange_exchange h (f := fun k => k == .stop || k == .heatOff || k == .safe || k == .clearDoor)
        (by simpa [or_assoc] using hk) fun e w => w.takePosted p e
      refine ⟨?_, ?_⟩
      · refine (exec_statusArrival_bytes h (readReply_ack p notPoll)).trans (Eq.trans ?_ posted.symm)
        rcases hk with hk | hk | hk | hk <;> simp only [Work.takeReply, hk]
      · refine (exec_statusArrival_bytes h (readReply_notReady p notPoll (n := 1) rfl)).trans (Eq.trans ?_ posted.symm)
        rcases hk with hk | hk | hk | hk <;> simp only [Work.takeReply, hk]
    · exact exec_statusArrival_discarded h (readReply_bad _ hb)

end Sys2Proof.Machine
end
section
/-! SUPPORT. What the host port answers itself, and the requests whose owner answers or enqueues at once (chapter 9). -/

namespace Sys2Proof.Machine

/-! ### A request as its owner gets it -/

/-- A request that the part state allows passes to its owner, the port BUSY with it (R178, R181). -/
theorem exec_owned {c : Instr} {r : HostReq} {s : State} (h : hostRequest c = some r) (hr : s.hostReady)
    (ht : turnedAway s.part r = none) : exec c s = .next ((Work.begin (s.taken r)).own r).finish := by
  rw [exec_request s h, powered_on hr.1, requestFrame_taken (Work.begin s) r (·.own r) hr.2 ht]
  rfl

/-- A request that the part state turns away is answered (R181 step 3). -/
theorem exec_away {c : Instr} {r : HostReq} {s : State} {x : Result} (h : hostRequest c = some r) (hr : s.hostReady)
    (ht : turnedAway s.part r = some x) : exec c s = .next (s.answered x []) := by
  rw [exec_request s h, powered_on hr.1, requestFrame_away (Work.begin s) r (·.own r) hr.2 ht, Work.finish_of_quiet _ rfl]
  rfl

/-- In ACTIVE a request passes to its owner but for the three of COMMISSION (section 9.2). -/
theorem exec_active {c : Instr} {r : HostReq} {s : State} (h : hostRequest c = some r) (hr : s.hostReady) (ha : s.part = .active)
    (ht : takenInActive r = true) : exec c s = .next ((Work.begin (s.taken r)).own r).finish := by
  refine exec_owned h hr ?_
  unfold turnedAway
  simp [ha, ht]

/-- In COMMISSION the requests of section 9.2 pass to their owners. -/
theorem exec_commission {c : Instr} {r : HostReq} {s : State} (h : hostRequest c = some r) (hr : s.hostReady)
    (ha : s.part = .commission) (ht : takenInCommission r = true) : exec c s = .next ((Work.begin (s.taken r)).own r).finish := by
  refine exec_owned h hr ?_
  unfold turnedAway
  simp [ha, ht]

/-- An owner that answers at once. -/
theorem begin_respond_finish (s : State) (r : HostReq) (x : Result) (b : List Byte) :
    ((Work.begin (s.taken r)).respond x b).finish = s.answered x b := Work.finish_of_quiet _ rfl

/-- An owner that enqueues an operation: the port stays BUSY. -/
theorem begin_enqueue_finish (s : State) (r : HostReq) (op : StoreOp) :
    ((Work.begin (s.taken r)).enqueue op).finish = (s.taken r).queues op := Work.finish_of_quiet _ rfl

theorem State.pocketInRange_none {s : State} {n : Nat} (h : 32 ≤ n ∨ s.count ≤ n) : s.pocketInRange n = none := by
  unfold State.pocketInRange
  exact dif_neg (by omega)

/-! ### The port itself (R179 to R181) -/

/-- A raw frame on a port that is free, when it is no request, is answered at once. -/
theorem exec_badFrame_answer {s : State} {bs : List Byte} {x : Result} (hr : s.hostReady) (h : readFrame bs = .answer x) :
    exec (.badFrame bs) s = .next (s.answered x []) := by
  have free : (Work.begin s).shiftStatus.port.state ≠ .busy := hr.2
  show (powered s fun w => w.rawFrame bs) = _
  rw [powered_on hr.1]
  simp only [Work.rawFrame, h, if_neg free]
  rw [Work.finish_of_quiet _ rfl]
  rfl

/-- A raw frame on a BUSY port is dropped. -/
theorem exec_badFrame_busy {s : State} {bs : List Byte} (hp : s.powered = true) (hb : s.port.state = .busy) :
    exec (.badFrame bs) s = .next (Work.begin s).shiftStatus.dropRequest.toState := by
  show (powered s fun w => w.rawFrame bs) = _
  rw [powered_on hp]
  unfold Work.rawFrame
  split
  · rw [requestFrame_busy (Work.begin s) _ _ hb, Work.finish_of_quiet _ rfl]
  · have busy : (Work.begin s).shiftStatus.port.state = .busy := hb
    simp only [if_pos busy]
    rw [Work.finish_of_quiet _ rfl]

theorem exec_fetch {s : State} (hp : s.powered = true) (n : Nat) : exec (.fetch n) s = .next ((Work.begin s).fetchFrame n).toState := by
  show (powered s fun w => w.fetchFrame n) = _
  rw [powered_on hp, Work.finish_of_quiet _ rfl]

/-- Settles O5. -/
theorem portDropsAndShifts : Obligations.PortDropsAndShifts := by
  unfold Obligations.PortDropsAndShifts
  refine ⟨fun c bytes s hp hb hc => ?_, fun n s r hp => ⟨fun hs hr hn => ?_, fun hs hr hn => ?_, fun hs => ?_⟩⟩
  · rcases hc with hc | rfl | rfl
    · obtain ⟨r, hr⟩ := Option.isSome_iff_exists.1 hc
      rw [exec_request s hr, powered_on hp, requestFrame_busy (Work.begin s) r _ hb, Work.finish_of_quiet _ rfl]
      rfl
    · exact exec_badFrame_busy hp hb
    · show (powered s fun w => if w.port.state = .busy then w.shiftStatus.dropRequest else w) = _
      rw [powered_on hp, if_pos (show (Work.begin s).port.state = .busy from hb), Work.finish_of_quiet _ rfl]
      rfl
  · rw [exec_fetch hp]
    simp [Work.fetchFrame, hs, hr, hn, List.take_of_length_le, Work.begin]
  · rw [exec_fetch hp]
    simp [Work.fetchFrame, hs, hr, Nat.not_le.2 hn, Work.begin]
  · rw [exec_fetch hp]
    simp [Work.fetchFrame, hs, Work.begin]

/-! ### What the part state and the frame rule out -/

theorem hostRequest_inj {c c' : Instr} {r : HostReq} (h : hostRequest c = some r) (h' : hostRequest c' = some r) : c = c' := by
  cases c <;> simp only [hostRequest, Option.some.injEq, reduceCtorEq] at h <;> subst h <;>
    cases c' <;> simp_all [hostRequest]

theorem readRequest_unknown {code pocket : Nat} (h : code = 0 ∨ 22 < code) (pl : List Byte) :
    readRequest code pocket pl = .answer .unknown := by
  rcases h with rfl | h
  · rfl
  · obtain ⟨k, rfl⟩ : ∃ k, code = k + 23 := ⟨code - 23, by omega⟩
    have other : readRequest (k + 23) pocket pl = if 1 ≤ k + 23 ∧ k + 23 ≤ 22 then .answer .badFrame else .answer .unknown := rfl
    rw [other, if_neg (by omega)]

/-- Read byte for byte: a payload of a length that no form of the code has. -/
theorem readRequest_badLength {code pocket : Nat} (h1 : 1 ≤ code) (h22 : code ≤ 22) {pl : List Byte}
    (hl : pl.length ∉ payloadLengths code) : readRequest code pocket pl = .answer .badFrame := by
  rcases pl with _ | ⟨_, _ | ⟨_, _ | ⟨_, _ | ⟨_, _ | ⟨_, _ | ⟨_, _ | ⟨_, _ | ⟨_, _ | ⟨_, _ | ⟨_, _ | ⟨_, _ | ⟨_, _ | ⟨_, _⟩⟩⟩⟩⟩⟩⟩⟩⟩⟩⟩⟩⟩
  all_goals
    interval_cases code
    all_goals try rfl
    all_goals exact absurd (by simp [payloadLengths]) hl

theorem readFrame_short {bs : List Byte} (h : bs.length < 3) : readFrame bs = .answer .badFrame := by
  unfold readFrame
  split
  · simp only [List.length_cons] at h
    omega
  · rfl

theorem readFrame_incomplete {code pocket len : Byte} {payload : List Byte} (h : 24 < len.toNat ∨ payload.length ≤ len.toNat) :
    readFrame (code :: pocket :: len :: payload) = .answer .badFrame := if_pos h

theorem readFrame_badCrc {code pocket len : Byte} {payload : List Byte}
    (h : crc8 (code :: pocket :: len :: payload.take (len.toNat + 1)) ≠ 0) :
    readFrame (code :: pocket :: len :: payload) = .answer .badFrame := by
  unfold readFrame
  dsimp only
  by_cases hl : 24 < len.toNat ∨ payload.length ≤ len.toNat
  · exact if_pos hl
  · rw [if_neg hl, if_pos h]

/-- Settles O6. -/
theorem requestsNotTakenAreAnswered : Obligations.RequestsNotTakenAreAnswered := by
  unfold Obligations.RequestsNotTakenAreAnswered
  refine ⟨fun c r s h hr hs => ⟨fun hp => ?_, fun hp => ?_, fun hp hc => ?_, fun hp h1 h2 h3 h4 h5 h6 h7 => ?_⟩,
    fun code pocket len bytes payload s hr => ⟨fun hb => ?_, fun hb => ?_, fun h24 hl hb => ?_, fun hl h24 hc => ?_,
      fun hl h24 h1 h22 hn => ?_⟩⟩
  · refine exec_away h hr ?_
    rcases hp with hp | hp <;> simp [turnedAway, hs, hp]
  · refine exec_away h hr ?_
    rcases hp with hp | hp <;> simp [turnedAway, hs, hp]
  · refine exec_away h hr ?_
    have not : takenInActive r = false := by
      rcases hc with rfl | ⟨g, n, rfl⟩ | ⟨i, v, rfl⟩ <;> obtain rfl := Option.some.inj h <;> rfl
    simp [turnedAway, hs, hp, not]
  · refine exec_away h hr ?_
    have not : takenInCommission r = false := by
      cases r with
      | status => exact absurd rfl hs
      | events => exact absurd (hostRequest_inj h rfl) h1
      | storeReport => exact absurd (hostRequest_inj h rfl) h2
      | clearLatch => exact absurd (hostRequest_inj h rfl) h3
      | leaveCommission => exact absurd (hostRequest_inj h rfl) h4
      | getSetting i => exact absurd (hostRequest_inj h rfl) (h5 i)
      | format g n => exact absurd (hostRequest_inj h rfl) (h6 g n)
      | setSetting i v => exact absurd (hostRequest_inj h rfl) (h7 i v)
      | _ => rfl
    simp [turnedAway, hs, hp, not]
  · exact exec_badFrame_answer hr (readFrame_short hb)
  · exact exec_badFrame_answer hr (readFrame_incomplete hb)
  · exact exec_badFrame_answer hr (readFrame_badCrc hb)
  · exact exec_badFrame_answer hr ((readFrame_withCrc hl h24).trans (readRequest_unknown hc _))
  · exact exec_badFrame_answer hr ((readFrame_withCrc hl h24).trans (readRequest_badLength h1 h22 hn))

/-! ### Reports (sections 9.4 and 9.5) -/

/-- In ACTIVE and COMMISSION alike. -/
theorem exec_either {c : Instr} {r : HostReq} {s : State} (h : hostRequest c = some r) (hr : s.hostReady)
    (ha : s.part = .active ∨ s.part = .commission) (ht : takenInActive r = true) (hc : takenInCommission r = true) :
    exec c s = .next ((Work.begin (s.taken r)).own r).finish :=
  ha.elim (exec_active h hr · ht) (exec_commission h hr · hc)

/-- Settles O7. -/
theorem reportsAnswerAndEventsEmpty : Obligations.ReportsAnswerAndEventsEmpty := by
  unfold Obligations.ReportsAnswerAndEventsEmpty
  refine ⟨fun i s hr => ⟨?_, fun ha => ⟨?_, fun hi => ?_, fun hi => ?_⟩⟩, fun s hr ha => ⟨?_, rfl, ?_⟩⟩
  · rw [exec_owned (r := .status) rfl hr rfl]
    exact congrArg Host.Outcome.next (begin_respond_finish s _ _ _)
  · rw [exec_either (r := .storeReport) rfl hr ha rfl rfl]
    exact congrArg Host.Outcome.next (begin_respond_finish s _ _ _)
  · rw [exec_either (r := .getSetting i) rfl hr ha rfl rfl]
    simp only [Work.own, Work.ownGetSetting, itemExists, hi, decide_true, Bool.and_self, if_true]
    exact congrArg Host.Outcome.next (begin_respond_finish s _ _ _)
  · rw [exec_either (r := .getSetting i) rfl hr ha rfl rfl]
    have not : itemExists i = false := by unfold itemExists; simp; omega
    simp only [Work.own, Work.ownGetSetting, not]
    exact congrArg Host.Outcome.next (begin_respond_finish s _ _ _)
  · rw [exec_either (r := .events) rfl hr ha rfl rfl]
    exact congrArg Host.Outcome.next (Work.finish_of_quiet _ rfl)
  · rw [exec_either (r := .clearLatch) rfl hr ha rfl rfl]
    exact congrArg Host.Outcome.next (Work.finish_of_quiet _ rfl)

end Sys2Proof.Machine
end
section
/-! SUPPORT. The requests that set the start enable mask, clear a pocket, commission the part or wait for a translation
(chapters 6, 9 and 10). -/

namespace Sys2Proof.Machine

/-! ### Link records -/

theorem upd_upd {α : Type} {n : Nat} (v : Vector α n) (p : Fin n) (x y : α) : upd (upd v p x) p y = upd v p y :=
  by simp [upd]

@[simp] theorem Work.pocketLink_onLink_self (w : Work) (p : Pocket) (f : PocketLink → PocketLink) :
    (w.onLink p f).pocketLink p = f (w.pocketLink p) := upd_self _ _ _

theorem Work.pocketLink_onLink_other (w : Work) {p q : Pocket} (f : PocketLink → PocketLink) (h : q ≠ p) :
    (w.onLink p f).pocketLink q = w.pocketLink q := upd_other _ _ h

theorem Work.onLink_onLink (w : Work) (p : Pocket) (f g : PocketLink → PocketLink) :
    (w.onLink p f).onLink p g = w.onLink p fun l => g (f l) := by
  unfold Work.onLink State.pocketLink
  simp only [upd_upd, upd_self]

/-- A link state that changes. -/
theorem Work.setLinkState_of_ne {w : Work} {p : Pocket} {x : LinkState} (h : (w.pocketLink p).state ≠ x) (c : Option FaultCause) :
    w.setLinkState p x c = (w.onLink p fun l =>
      { l with state := x, cause := c, safeOwed := if x = .fault then l.safeOwed else false }).mark .link p := if_neg h

theorem Work.setLinkState_of_eq {w : Work} {p : Pocket} {x : LinkState} (h : (w.pocketLink p).state = x) (c : Option FaultCause) :
    w.setLinkState p x c = w := if_pos h

/-- Settles O9: the pocket's link record alone changes, and the command's end finds nothing owed. -/
theorem clearPocketReturnsToUnknown : Obligations.ClearPocketReturnsToUnknown := by
  unfold Obligations.ClearPocketReturnsToUnknown
  intro p n s hr ha
  dsimp only
  refine ⟨fun hp => ⟨fun hl => ?_, fun hl => ?_⟩, fun hn => ?_⟩
  · have found : (Work.begin (s.taken (.clearPocket p.val))).pocketInRange p.val = some p := State.pocketInRange_of_lt hp
    have down : ((Work.begin (s.taken (.clearPocket p.val))).pocketLink p).state = .fault ∨
      ((Work.begin (s.taken (.clearPocket p.val))).pocketLink p).state = .offline := hl
    have known : ((Work.begin (s.taken (.clearPocket p.val))).pocketLink p).state ≠ .unknown := by
      rcases down with e | e <;> rw [e] <;> decide
    rw [exec_active (r := .clearPocket p.val) rfl hr ha rfl]
    simp only [Work.own, Work.ownClearPocket, found, if_pos down]
    rw [Work.setLinkState_of_ne known, show ∀ f g, ((Work.begin (s.taken (.clearPocket p.val))).onLink p f |>.mark .link p).onLink p g =
      (((Work.begin (s.taken (.clearPocket p.val))).onLink p f).onLink p g).mark .link p from fun _ _ => rfl, Work.onLink_onLink,
      Work.finish_of_quiet _ rfl]
    rfl
  · have found : (Work.begin (s.taken (.clearPocket p.val))).pocketInRange p.val = some p := State.pocketInRange_of_lt hp
    have up : ¬ (((Work.begin (s.taken (.clearPocket p.val))).pocketLink p).state = .fault ∨
        ((Work.begin (s.taken (.clearPocket p.val))).pocketLink p).state = .offline) := by
      show ¬ ((s.pocketLink p).state = .fault ∨ (s.pocketLink p).state = .offline)
      rcases hl with e | e <;> simp [e]
    rw [exec_active (r := .clearPocket p.val) rfl hr ha rfl]
    simp only [Work.own, Work.ownClearPocket, found, if_neg up]
    exact congrArg Host.Outcome.next (begin_respond_finish s _ _ _)
  · have none : (Work.begin (s.taken (.clearPocket n))).pocketInRange n = none := State.pocketInRange_none hn
    rw [exec_active (r := .clearPocket n) rfl hr ha rfl]
    simp only [Work.own, Work.ownClearPocket, none]
    exact congrArg Host.Outcome.next (begin_respond_finish s _ _ _)

/-! ### Commissioning (chapter 10) -/

/-- Settles O10. -/
theorem commissionAndRemapWritesAreQueued : Obligations.CommissionAndRemapWritesAreQueued := by
  unfold Obligations.CommissionAndRemapWritesAreQueued
  intro p i v n s hr
  refine ⟨fun ha hp => ?_, fun ha hn => ?_, fun hc => ⟨fun hn => ?_, fun hn => ?_, fun hn => ?_, fun hn => ?_, fun hi => ?_, fun hi => ?_, fun hi => ?_⟩⟩
  · have found : (Work.begin (s.taken (.remap p.val))).pocketInRange p.val = some p := State.pocketInRange_of_lt hp
    rw [exec_active (r := .remap p.val) rfl hr ha rfl]
    simp only [Work.own, Work.ownRemap, found]
    have same : (!(Work.begin (s.taken (.remap p.val))).ctl.mapFault.has p || ((Work.begin (s.taken (.remap p.val))).ctx p).isSome) =
      (!s.ctl.mapFault.has p || (s.ctx p).isSome) := rfl
    rw [same]
    by_cases hm : s.ctl.mapFault.has p = true ∧ s.ctx p = none
    · rw [if_pos hm, if_neg (by simp [hm.1, hm.2])]
      exact congrArg Host.Outcome.next (begin_enqueue_finish s _ _)
    · have refused : (!s.ctl.mapFault.has p || (s.ctx p).isSome) = true := by
        cases hf : s.ctl.mapFault.has p <;> cases hx : s.ctx p <;> simp_all
      rw [if_neg hm, if_pos refused]
      exact congrArg Host.Outcome.next (begin_respond_finish s _ _ _)
  · have none : (Work.begin (s.taken (.remap n))).pocketInRange n = none := State.pocketInRange_none hn
    rw [exec_active (r := .remap n) rfl hr ha rfl]
    simp only [Work.own, Work.ownRemap, none]
    exact congrArg Host.Outcome.next (begin_respond_finish s _ _ _)
  · rw [exec_commission (r := .format 0 n) rfl hr hc rfl]
    have agrees : countAgrees .standard n = true := by simp [countAgrees, pocketMax, hn]
    simp only [Work.own, Work.ownFormat, formatGeometry, if_pos agrees]
    exact congrArg Host.Outcome.next (begin_enqueue_finish s _ _)
  · rw [exec_commission (r := .format 1 n) rfl hr hc rfl]
    have agrees : countAgrees .compact n = true := by simp [countAgrees, pocketMax, hn]
    simp only [Work.own, Work.ownFormat, formatGeometry, if_pos agrees]
    exact congrArg Host.Outcome.next (begin_enqueue_finish s _ _)
  · rw [exec_commission (r := .format 0 n) rfl hr hc rfl]
    have not : ¬ countAgrees .standard n = true := by
      rw [show countAgrees .standard n = (decide (1 ≤ n) && decide (n ≤ 16)) from rfl, Bool.and_eq_true, decide_eq_true_eq, decide_eq_true_eq]
      omega
    simp only [Work.own, Work.ownFormat, formatGeometry, if_neg not]
    exact congrArg Host.Outcome.next (begin_respond_finish s _ _ _)
  · rw [exec_commission (r := .format 1 n) rfl hr hc rfl]
    have not : ¬ countAgrees .compact n = true := by
      rw [show countAgrees .compact n = (decide (1 ≤ n) && decide (n ≤ 32)) from rfl, Bool.and_eq_true, decide_eq_true_eq, decide_eq_true_eq]
      omega
    simp only [Work.own, Work.ownFormat, formatGeometry, if_neg not]
    exact congrArg Host.Outcome.next (begin_respond_finish s _ _ _)
  · obtain ⟨k, rfl⟩ : ∃ k, i = k + 2 := ⟨i - 2, by omega⟩
    rw [exec_commission (r := .format (k + 2) n) rfl hr hc rfl]
    exact congrArg Host.Outcome.next (begin_respond_finish s _ _ _)
  · rw [exec_commission (r := .setSetting i v) rfl hr hc rfl]
    have taken : (itemExists i && itemInRange i v) = true := by simp [itemExists, itemInRange, hi]
    simp only [Work.own, Work.ownSetSetting, if_pos taken]
    exact congrArg Host.Outcome.next (Work.finish_of_quiet _ rfl)
  · rw [exec_commission (r := .setSetting i v) rfl hr hc rfl]
    have not : ¬ (itemExists i && itemInRange i v) = true := by simp [itemExists, itemInRange]; omega
    simp only [Work.own, Work.ownSetSetting, if_neg not]
    exact congrArg Host.Outcome.next (begin_respond_finish s _ _ _)

/-- Settles O12. -/
theorem leaveCommissionResetsTheBlocks : Obligations.LeaveCommissionResetsTheBlocks := by
  unfold Obligations.LeaveCommissionResetsTheBlocks
  intro s hr hc
  rw [exec_commission (r := .leaveCommission) rfl hr hc rfl]
  have good : (Work.begin (s.taken .leaveCommission)).ctl.headerGood = s.ctl.headerGood := rfl
  refine ⟨fun hb => ?_, fun hf hw hi => ?_⟩
  · have not : ¬ s.ctl.headerGood = true := by
      rcases hb with hb | hb | hb <;> simp only [StoreCtl.headerGood, hb, Bool.not_true, Bool.false_and, Bool.and_false, Bool.false_eq_true,
        not_false_eq_true]
    simp only [Work.own, Work.ownLeaveCommission, good, if_neg not]
    exact congrArg Host.Outcome.next (begin_respond_finish s _ _ _)
  · have ok : s.ctl.headerGood = true := by simp only [StoreCtl.headerGood, hf, hw, hi, Bool.not_false, Bool.and_self]
    simp only [Work.own, Work.ownLeaveCommission, good, if_pos ok]
    exact congrArg Host.Outcome.next (Work.finish_of_quiet _ rfl)

/-! ### Requests on a record -/

/-- A request on a record, but for RETIRE, waits for its translation (R38). -/
theorem ownTranslated_finish (s : State) (r : HostReq) (n : Nat) :
    ((Work.begin (s.taken r)).ownTranslated r n).finish =
      match s.pocketInRange n with
      | none => s.answered .range []
      | some p => if s.ctl.mapFault.has p then s.answered .mapFault [] else (s.taken r).queues (.translation r) := by
  have same : (Work.begin (s.taken r)).pocketInRange n = s.pocketInRange n := rfl
  have fault : (Work.begin (s.taken r)).ctl = s.ctl := rfl
  unfold Work.ownTranslated
  rw [same, fault]
  cases s.pocketInRange n with
  | none => exact begin_respond_finish s _ _ _
  | some p =>
    dsimp only
    split
    · exact begin_respond_finish s _ _ _
    · exact begin_enqueue_finish s _ _

/-- Settles O13. -/
theorem recordRequestsAwaitTranslation : Obligations.RecordRequestsAwaitTranslation := by
  unfold Obligations.RecordRequestsAwaitTranslation
  intro c r n p s hc hr ha
  have owner : hostRequest c = some r ∧ takenInActive r = true ∧
      ((∀ w : Work, w.own r = w.ownTranslated r n) ∨ (c = .retire n ∧ r = .retire n)) := by
    cases c <;> simp only [recordRequest, Option.some.injEq, Prod.mk.injEq, reduceCtorEq] at hc <;> obtain ⟨rfl, rfl⟩ := hc <;>
      simp [hostRequest, takenInActive, Work.own]
  obtain ⟨host, active, owner⟩ := owner
  rw [exec_active host hr ha active]
  rcases owner with owner | ⟨rfl, rfl⟩
  · rw [owner, ownTranslated_finish]
    refine ⟨fun hn => by rw [State.pocketInRange_none hn], fun hp hn => ?_⟩
    subst hp
    rw [State.pocketInRange_of_lt hn]
    exact ⟨fun hf => by simp [hf], fun hf _ => by simp [hf]⟩
  · have same : (Work.begin (s.taken (.retire n))).pocketInRange n = s.pocketInRange n := rfl
    simp only [Work.own, Work.ownRetire, same]
    refine ⟨fun hn => ?_, fun hp hn => ?_⟩
    · rw [State.pocketInRange_none hn]
      exact congrArg Host.Outcome.next (begin_respond_finish s _ _ _)
    · subst hp
      rw [State.pocketInRange_of_lt hn]
      refine ⟨fun hf => ?_, fun hf hx => ?_⟩
      · have free : ¬ (Work.begin (s.taken (.retire p.val))).ctl.mapFault.has p = true := by
          show ¬ s.ctl.mapFault.has p = true
          simp [hf]
        simp only [if_neg free]
        exact congrArg Host.Outcome.next (begin_enqueue_finish s _ _)
      · have fault : (Work.begin (s.taken (.retire p.val))).ctl.mapFault.has p = true := hf
        have gone : ((Work.begin (s.taken (.retire p.val))).ctx p).isSome = false := by
          have : s.ctx p = none := hx.resolve_left fun h => h rfl
          show (s.ctx p).isSome = false
          rw [this]; rfl
        simp only [if_pos fault, Work.onMapFault, gone]
        exact congrArg Host.Outcome.next (begin_respond_finish s _ _ _)

/-! ### Grants to the winner (R119, R120) -/

/-- One step of the arbiter's scan for the winner (R120). -/
def State.better (s : State) (best : Option (Pocket × Nat)) (p : Pocket) : Option (Pocket × Nat) :=
  match s.request p, best with
  | some l, some (_, b) => if s.eligible p && b < l then some (p, l) else best
  | some l, none => if s.eligible p then some (p, l) else none
  | none, _ => best

theorem State.winner_eq_foldl (s : State) : s.winner = allPockets.foldl s.better none := rfl

/-- The scan keeps its best, or takes an eligible pocket with its level, above that of the best so far. -/
theorem State.better_cases (s : State) (best : Option (Pocket × Nat)) (p : Pocket) :
    s.better best p = best ∨ ∃ l, s.better best p = some (p, l) ∧ s.eligible p = true ∧ s.request p = some l ∧ ∀ x, best = some x → x.2 < l := by
  unfold State.better
  split
  · rename_i l q b hr
    split
    · rename_i h
      simp only [Bool.and_eq_true, decide_eq_true_eq] at h
      exact .inr ⟨l, rfl, h.1, hr, fun x hx => by obtain rfl := Option.some.inj hx; exact h.2⟩
    · exact .inl rfl
  · rename_i l hr
    split
    · rename_i h
      exact .inr ⟨l, rfl, h, hr, fun _ hx => nomatch hx⟩
    · exact .inl rfl
  · exact .inl rfl

/-- An eligible pocket above the best so far is taken. -/
theorem State.better_of_eligible {s : State} {best : Option (Pocket × Nat)} {p : Pocket} {l : Nat} (he : s.eligible p = true)
    (hr : s.request p = some l) (h : ∀ x, best = some x → x.2 < l) : s.better best p = some (p, l) := by
  unfold State.better
  cases best with
  | none => simp [hr, he]
  | some x => simp [hr, he, h x rfl]

/-- The request that wins is the winner of the arbiter's scan. -/
theorem State.winner_of_wins {s : State} {p : Pocket} {n : Nat} (h : s.wins p n) : s.winner = some (p, n) := by
  obtain ⟨eligible, request, best⟩ := h
  obtain ⟨before, after, split⟩ := List.mem_iff_append.1 (List.mem_finRange p)
  have ordered : (before ++ p :: after).Pairwise (· < ·) := split ▸ (List.sortedLT_finRange 32).pairwise
  have early : ∀ x, before.foldl s.better none = some x → x.2 < n := by
    refine List.foldlRecOn (motive := fun b : Option (Pocket × Nat) => ∀ x, b = some x → x.2 < n) before _ (fun _ hx => nomatch hx)
      fun b ih q hq x hx => ?_
    have below : q < p := (List.pairwise_append.1 ordered).2.2 q hq p List.mem_cons_self
    rcases s.better_cases b q with e | ⟨m, e, he, hm, -⟩ <;> rw [e] at hx
    · exact ih x hx
    · obtain rfl := Option.some.inj hx
      exact (best q m he hm).elim id fun h => absurd below (not_lt_of_ge h.2)
  rw [s.winner_eq_foldl, show allPockets = before ++ p :: after from split, List.foldl_append, List.foldl_cons,
    State.better_of_eligible eligible request early]
  refine List.foldlRecOn (motive := fun b : Option (Pocket × Nat) => b = some (p, n)) after _ rfl fun b ih q _ => ?_
  rcases s.better_cases b q with e | ⟨m, e, he, hm, above⟩
  · exact e.trans ih
  · have := above _ ih
    rcases best q m he hm with hlt | ⟨heq, -⟩ <;> dsimp only at this <;> omega

/-- What a grant to `p` leaves of its request and its slot. -/
theorem Arbiter.Grants.granted {a b : Arbiter} (h : Arbiter.Grants a b) {p : Pocket} {x : Slot} (hr : a.requests[p] = none)
    (hs : a.slots.find? (·.pocket == p) = some x) : b.requests[p] = none ∧ b.slots.find? (·.pocket == p) = some x := by
  refine ⟨(h.requests p).elim (·.trans hr) (·.1), ?_⟩
  obtain ⟨l, hl⟩ := h.slots
  rw [hl, List.find?_append, hs]
  rfl

theorem Work.evaluateGrants_of_winner (k : Nat) {w : Work} {p : Pocket} {n : Nat} (may : w.mayGrant = true) (win : w.winner = some (p, n)) :
    Work.evaluateGrants (k + 1) w = Work.evaluateGrants k (w.grantTo p n) := by
  rw [Work.evaluateGrants, if_pos may, win]

section
variable {w : Work} (quiet : Work.quiet { w with grant := false } = true) (still : w.gone = 0) (asked : w.grant = true) {p : Pocket} {n : Nat}
  (may : w.mayGrant = true) (wins : w.wins p n)
include quiet still asked may wins

/-- A command that calls for a grant and owes nothing else makes the grant to the winner first. -/
theorem Work.finish_of_winner : w.finish = (Work.settle 7 (Work.evaluateGrants 4 (w.debtFree.grantTo p n))).toState := by
  simp only [Work.quiet, Bool.not_eq_true', Bool.or_eq_false_iff, Option.isSome_eq_false_iff, Option.isNone_iff_eq_none] at quiet
  obtain ⟨⟨⟨⟨anyGone, drop⟩, room⟩, serve⟩, -⟩ := quiet
  have loud : w.quiet = false := by simp [Work.quiet, asked]
  have once : w.settleOnce = Work.evaluateGrants 4 (w.debtFree.grantTo p n) := by
    have rest : allPockets.foldl (fun (v : Work) q => if w.drop || w.gone.has q then v.convergeOne q else v) w.debtFree = w.debtFree :=
      foldl_same (fun q => by simp [drop, still, Mask.has]) _
    have mayFree : w.debtFree.mayGrant = true := may
    have winFree : w.debtFree.winner = some (p, n) := State.winner_of_wins wins
    unfold Work.settleOnce
    simp only [Work.admitHeld_quiet w room, rest, anyGone, serve, asked, Bool.false_eq_true, if_false, if_true]
    exact Work.evaluateGrants_of_winner 4 mayFree winFree
  unfold Work.finish
  rw [Work.settle, if_neg (by simp [loud]), once]

/-- **It grants the winning request.** -/
theorem Work.finish_grants_winner (free : w.slotOf p = none) :
    w.finish.request p = none ∧ w.finish.slotOf p = some
      { pocket := p, stage := .awaitAck, level := n, timerMs := w.setting 10 * 100, carried := none, doorRefused := false } := by
  have grants := (Work.evaluateGrants_grants 4 (w.debtFree.grantTo p n)).trans (Work.settle_grants 7 _)
  rw [Work.finish_of_winner quiet still asked may wins]
  refine grants.granted ?_ ?_
  · rw [Work.grantTo_arb]; exact upd_self _ _ _
  · have freed : w.arb.slots.find? (·.pocket == p) = none := free
    rw [Work.grantTo_arb]
    show (w.arb.slots ++ [_]).find? _ = _
    rw [List.find?_append, freed]
    simp

end

end Sys2Proof.Machine
end
section
/-! SUPPORT. The start enable mask and ENTER_COMMISSION (sections 6.2 and 10.1). -/

namespace Sys2Proof.Machine

theorem Mask.mem_pockets {m : Mask} {q : Pocket} : q ∈ Mask.pockets m ↔ Mask.has m q = true := by
  unfold Mask.pockets
  rw [List.mem_filter]
  exact and_iff_right (List.mem_finRange q)

/-- HOLD_MASK is refused where its masks overlap or name a pocket of P or more (R117). -/
theorem holdMask_refused_iff (s : State) (set clear : Mask) :
    (set &&& clear != 0 || (Mask.pockets (set ||| clear)).any fun p => s.count ≤ p.val) = true ↔
      (set &&& clear ≠ 0 ∨ ∃ q : Pocket, Mask.has (set ||| clear) q = true ∧ s.count ≤ q.val) := by
  simp only [Bool.or_eq_true, bne_iff_ne, List.any_eq_true, Mask.mem_pockets, decide_eq_true_eq]

section
variable {s : State} {p q : Pocket} {n : Nat}

theorem exec_hold (hr : s.hostReady) (ha : s.part = .active) (hp : p.val < s.count) : exec (.hold p.val) s =
    .next { s.answered .ok (s.holdPayload p) with arb := { s.arb with mask := s.arb.mask.put p false } } := by
  have found : (Work.begin (s.taken (.hold p.val))).pocketInRange p.val = some p := State.pocketInRange_of_lt hp
  rw [exec_active (r := .hold p.val) rfl hr ha rfl]
  simp only [Work.own, Work.ownHold, found]
  exact congrArg Host.Outcome.next (Work.finish_of_quiet _ rfl)

/-- A new mask, the answer, and the grant that a flag set again calls for, as a work in progress. -/
def State.remasked (s : State) (r : HostReq) (m : Mask) (grant : Bool) (payload : List Byte) : Work :=
  Work.respond { Work.begin (s.taken r) with arb := { s.arb with mask := m }, grant := grant } .ok payload

theorem exec_release (hr : s.hostReady) (ha : s.part = .active) (hp : p.val < s.count) :
    exec (.release p.val) s = .next (s.remasked (.release p.val) (s.arb.mask.put p true) true (s.holdPayload p)).finish := by
  have found : (Work.begin (s.taken (.release p.val))).pocketInRange p.val = some p := State.pocketInRange_of_lt hp
  rw [exec_active (r := .release p.val) rfl hr ha rfl]
  simp only [Work.own, Work.ownRelease, found]
  rfl

theorem exec_holdMask (hr : s.hostReady) (ha : s.part = .active) {set clear : Mask}
    (ok : ¬ (set &&& clear ≠ 0 ∨ ∃ q : Pocket, Mask.has (set ||| clear) q = true ∧ s.count ≤ q.val)) :
    exec (.holdMask set clear) s =
      .next (s.remasked (.holdMask set clear) ((s.arb.mask ||| set) &&& ~~~ clear) (set != 0) (maskBytes s.arb.mask)).finish := by
  rw [exec_active (r := .holdMask set clear) rfl hr ha rfl]
  unfold Work.own Work.ownHoldMask
  dsimp only
  split
  · rename_i h
    exact absurd ((holdMask_refused_iff s set clear).1 h) ok
  · rfl

/-- What the new mask allows is granted (R119, R120). -/
theorem State.remasked_grants {r : HostReq} {m : Mask} {b : List Byte}
    (may : State.mayGrant { s with arb := { s.arb with mask := m } } = true) (wins : State.wins { s with arb := { s.arb with mask := m } } q n)
    (free : s.slotOf q = none) :
    (s.remasked r m true b).finish.request q = none ∧ (s.remasked r m true b).finish.slotOf q = some
      { pocket := q, stage := .awaitAck, level := n, timerMs := s.setting 10 * 100, carried := none, doorRefused := false } :=
  Work.finish_grants_winner rfl rfl rfl may wins free

theorem State.remasked_offGrant (r : HostReq) (m : Mask) (g : Bool) (b : List Byte) :
    (s.remasked r m g b).finish.offGrant = State.offGrant { s.answered .ok b with arb := { s.arb with mask := m } } := by
  rw [Work.finish_offGrant]
  rfl

end

/-- Settles O8. -/
theorem holdAndReleaseSetTheMask : Obligations.HoldAndReleaseSetTheMask := by
  unfold Obligations.HoldAndReleaseSetTheMask
  intro p set clear s hr ha
  have refused {c : Instr} {r : HostReq} {n : Nat} (hc : hostRequest c = some r) (ht : takenInActive r = true)
      (ho : ∀ w : Work, w.pocketInRange n = none → w.own r = w.respond .range []) (hn : 32 ≤ n ∨ s.count ≤ n) :
      exec c s = .next (s.answered .range []) := by
    rw [exec_active hc hr ha ht, ho _ (State.pocketInRange_none hn)]
    exact congrArg Host.Outcome.next (begin_respond_finish s _ _ _)
  refine ⟨fun hp => exec_hold hr ha hp, fun hp => ⟨⟨_, exec_release hr ha hp, State.remasked_offGrant _ _ _ _⟩, fun q n may wins free =>
      ⟨_, exec_release hr ha hp, State.remasked_grants may wins free⟩⟩, fun n hn => ⟨?_, ?_⟩, fun apart below => ?_, fun h => ?_⟩
  · exact refused (r := .hold n) rfl rfl (fun w h => by simp only [Work.own, Work.ownHold, h]) hn
  · exact refused (r := .release n) rfl rfl (fun w h => by simp only [Work.own, Work.ownRelease, h]) hn
  · have ok : ¬ (set &&& clear ≠ 0 ∨ ∃ q : Pocket, Mask.has (set ||| clear) q = true ∧ s.count ≤ q.val) := by
      rintro (h | ⟨q, hq, hle⟩)
      · exact h apart
      · exact absurd (below q hq) (Nat.not_lt.2 hle)
    refine ⟨⟨_, exec_holdMask hr ha ok, State.remasked_offGrant _ _ _ _⟩, fun some q n may wins free => ?_, fun none => ?_⟩
    · rw [exec_holdMask hr ha ok, bne_iff_ne.2 some]
      exact ⟨_, rfl, State.remasked_grants may wins free⟩
    · subst none
      rw [exec_holdMask hr ha ok, show s.arb.mask ||| 0 = s.arb.mask from BitVec.or_zero]
      exact congrArg Host.Outcome.next (Work.finish_of_quiet _ rfl)
  · rw [exec_active (r := .holdMask set clear) rfl hr ha rfl]
    unfold Work.own Work.ownHoldMask
    dsimp only
    split
    · exact congrArg Host.Outcome.next (begin_respond_finish s _ _ _)
    · rename_i taken
      exact absurd ((holdMask_refused_iff s set clear).2 h) taken

/-! ### ENTER_COMMISSION (R191, R192) -/

/-- A broadcast SAFE on a free link is sent at once, at the head of the queue (R111). -/
theorem Work.broadcastSafe_free {w : Work} (h : w.inFlight = none) :
    w.broadcastSafe.link.queue = { Entry.fresh none .safe with state := .inFlight } :: w.link.queue ∧
      w.broadcastSafe.link.sent = Entry.bytes (Entry.fresh none .safe) := by
  have free : State.inFlight (w.setQueue (Entry.fresh none .safe :: w.link.queue)).toState = none := by
    show (Entry.fresh none .safe :: w.link.queue).find? _ = none
    rw [List.find?_cons]
    exact h
  unfold Work.broadcastSafe Work.sendBroadcast
  rw [free]
  exact ⟨rfl, rfl⟩

/-- While an exchange is under way it waits there. -/
theorem Work.broadcastSafe_busy {w : Work} (h : w.inFlight ≠ none) :
    w.broadcastSafe.link.queue = Entry.fresh none .safe :: w.link.queue := by
  obtain ⟨e, he⟩ := Option.ne_none_iff_exists'.1 h
  have busy : State.inFlight (w.setQueue (Entry.fresh none .safe :: w.link.queue)).toState = some e := by
    show (Entry.fresh none .safe :: w.link.queue).find? _ = some e
    rw [List.find?_cons]
    exact he
  unfold Work.broadcastSafe
  rw [Work.sendBroadcast_of_inFlight busy]
  rfl

/-- Settles O11: only the link is touched besides, and outside ACTIVE nothing owed is done. -/
theorem enterCommissionClearsTheArbiters : Obligations.EnterCommissionClearsTheArbiters := by
  unfold Obligations.EnterCommissionClearsTheArbiters
  intro s hr ha
  rw [exec_active (r := .enterCommission) rfl hr ha rfl]
  have work : ((Work.begin (s.taken .enterCommission)).contextCount ≠ 0 ∨ (Work.begin (s.taken .enterCommission)).ctl.current.isSome = true ∨
      (!(Work.begin (s.taken .enterCommission)).ctl.queue.isEmpty) = true) ↔ (s.contextCount ≠ 0 ∨ s.ctl.current ≠ none ∨ s.ctl.queue ≠ []) := by
    show (s.contextCount ≠ 0 ∨ s.ctl.current.isSome = true ∨ (!s.ctl.queue.isEmpty) = true) ↔ _
    simp [Option.isSome_iff_ne_none]
  refine ⟨fun h => ?_, fun h1 h2 h3 => ?_⟩
  · simp only [Work.own, Work.ownEnterCommission, if_pos (work.2 h)]
    exact congrArg Host.Outcome.next (begin_respond_finish s _ _ _)
  · have idle : ¬ (s.contextCount ≠ 0 ∨ s.ctl.current ≠ none ∨ s.ctl.queue ≠ []) := by simp [h1, h2, h3]
    simp only [Work.own, Work.ownEnterCommission, if_neg fun h => idle (work.1 h)]
    have offLink := ((Work.begin (s.taken .enterCommission)).enter .commission).removeEntries_offLink fun e => e.state != .inFlight
    have arb := ((Work.begin (s.taken .enterCommission)).enter .commission).removeEntries_arb fun e => e.state != .inFlight
    have ctl := ((Work.begin (s.taken .enterCommission)).enter .commission).removeEntries_ctl fun e => e.state != .inFlight
    have queue : (((Work.begin (s.taken .enterCommission)).enter .commission).removeEntries fun e => e.state != .inFlight).link.queue =
        s.link.queue.filter (·.state == .inFlight) := by
      rw [Work.removeEntries_at_rest _ _ rfl, Work.dropEntries_queue]
      refine List.filter_congr fun e _ => ?_
      cases h : e.state == EntryState.inFlight <;> simp [bne, h]
    generalize ((Work.begin (s.taken .enterCommission)).enter .commission).removeEntries (fun e => e.state != .inFlight) = v at offLink arb ctl queue ⊢
    have part : v.part = .commission := (congrArg State.part offLink :)
    rw [Work.finish_outside_active _ (by simp [part])]
    have line : v.inFlight = (s.link.queue.filter (·.state == .inFlight)).find? (·.state == .inFlight) := congrArg (List.find? _) queue
    refine ⟨_, rfl, ?_, ?_, ?_, ?_, fun free => ?_, fun busy => ?_⟩
    · have sent := Work.broadcastSafe_offLink { v with
        arb := { v.arb with requests := Vector.replicate 32 none, slots := [] }, heat := HeatUnit.reset, sag := SagThrottle.reset }
      have answered {x y : State} (h : x = y) : ({ x with port := { x.port with state := .ready, request := none, response := some ⟨.ok, []⟩ } } : State) =
          { y with port := { y.port with state := .ready, request := none, response := some ⟨.ok, []⟩ } } := h ▸ rfl
      exact (answered sent).trans (answered (congrArg (fun x : State => { x with sag := SagThrottle.reset }) offLink))
    · rw [Work.respond_arb, Work.broadcastSafe_arb, arb]
      rfl
    · rw [Work.respond_heat, Work.broadcastSafe_heat]
    · rw [Work.respond_ctl, Work.broadcastSafe_ctl, ctl]
      rfl
    · have none_in_flight : ∀ e ∈ s.link.queue, ¬ (e.state == EntryState.inFlight) = true := List.find?_eq_none.1 free
      have empty : s.link.queue.filter (·.state == .inFlight) = [] := List.filter_eq_nil_iff.2 none_in_flight
      rw [empty] at line queue
      obtain ⟨sent, bytes⟩ := Work.broadcastSafe_free (w := { v with
        arb := { v.arb with requests := Vector.replicate 32 none, slots := [] }, heat := HeatUnit.reset, sag := SagThrottle.reset }) line
      exact ⟨sent.trans (congrArg _ queue), bytes⟩
    · obtain ⟨e, he⟩ := Option.ne_none_iff_exists'.1 busy
      have found : v.inFlight ≠ none := by
        rw [line]
        intro empty
        have flying : (e.state == EntryState.inFlight) = true := List.find?_some (p := fun e : Entry => e.state == .inFlight) he
        exact List.find?_eq_none.1 empty e (List.mem_filter.2 ⟨List.mem_of_find?_eq_some he, flying⟩) flying
      exact (Work.broadcastSafe_busy (w := { v with
        arb := { v.arb with requests := Vector.replicate 32 none, slots := [] }, heat := HeatUnit.reset, sag := SagThrottle.reset }) found).trans
          (congrArg _ queue)

end Sys2Proof.Machine
end
section
/-! SUPPORT. The sag throttle, polling, settling, the backup domain and the resets (chapters 5 to 7). -/

namespace Sys2Proof.Machine

/-! ### The sag throttle (R133 to R135) -/

/-- Settles O47. -/
theorem sagPulsesThrottleTheBank : Obligations.SagPulsesThrottleTheBank := by
  unfold Obligations.SagPulsesThrottleTheBank
  intro s hp ha
  have runs : s.throttleRuns = true := by
    show (s.part == .plan || s.part == .active) = true
    rcases ha with h | h <;> rw [h] <;> rfl
  have pulse : exec .sagPulse s = execSagPulse s := rfl
  refine ⟨fun h => ?_, fun h hc => ?_, fun h hc => ?_, fun h => ?_, fun h => ?_⟩
  · rw [pulse, execSagPulse, powered_on hp, if_pos (by simp [h])]
    exact congrArg Host.Outcome.next (Work.finish_of_quiet _ rfl)
  · rw [pulse, execSagPulse, powered_on hp, if_neg (by simp [runs, h])]
    dsimp only
    rw [if_neg (by exact Nat.not_le.2 hc)]
    exact congrArg Host.Outcome.next (Work.finish_of_quiet _ rfl)
  · rw [pulse, execSagPulse, powered_on hp, if_neg (by simp [runs, h])]
    dsimp only
    rw [if_pos (by exact hc)]
    exact congrArg Host.Outcome.next (Work.finish_of_quiet _ rfl)
  · have window : exec .sagWindowExpiry s = execSagWindowExpiry s := rfl
    rw [window, execSagWindowExpiry, powered_on hp, if_pos (by simp [runs, h])]
    exact congrArg Host.Outcome.next (Work.finish_of_quiet _ rfl)
  · have throttle : exec .throttleTimerExpiry s = execThrottleTimerExpiry s := rfl
    rw [throttle, execThrottleTimerExpiry, powered_on hp, if_pos (by simp [runs, h])]
    refine ⟨_, rfl, Work.finish_sag _, ?_⟩
    rw [Work.finish_offGrant, Work.finish_sag]
    rfl

/-! ### Polling (R104, R105) -/

/-- A POLL that is posted joins the queue, unless one waits there already or a limit refuses it (R93). -/
theorem Work.postPoll_eq (w : Work) (p : Pocket) : w.postPoll p =
    w.setQueue (w.link.queue ++ if w.admits p .poll && !w.unsent p .poll then [Entry.fresh (some p) .poll] else []) := by
  have same : w.setQueue w.link.queue = w := rfl
  unfold Work.postPoll Work.join
  cases w.admits p .poll <;> cases w.unsent p .poll <;> simp [same]

/-- A probe that is admitted joins the queue and is owed no more (R105). -/
theorem Work.postProbe_joins {w : Work} {p : Pocket} (h : w.admits p .poll = true) (hu : w.unsent p .poll = false) :
    w.postProbe p = (w.setQueue (w.link.queue ++ [Entry.fresh (some p) .poll])).onLink p fun l => { l with probeOwed := false } := by
  unfold Work.postProbe Work.join
  rw [if_pos h, if_neg (by simp [hu])]

/-- Settles O44. -/
theorem pollsAreSkippedNotQueuedTwice : Obligations.PollsAreSkippedNotQueuedTwice := by
  unfold Obligations.PollsAreSkippedNotQueuedTwice
  intro p s hp ha hc
  have turn : exec (.pollTurn p) s = .next (Work.finish (if (Work.begin s).part = .active ∧ p.val < (Work.begin s).count ∧
      (Work.begin s).polled p = true ∧ (Work.begin s).link.queue.length < 24 then (Work.begin s).postPoll p else Work.begin s)) := by
    show powered s _ = _
    rw [powered_on hp]
    rfl
  have timer : exec (.offlinePollTimerExpiry p) s = .next (Work.finish (if (Work.begin s).part = .active ∧
      ((Work.begin s).pocketLink p).state = .offline then
        ((Work.begin s).onLink p fun l => { l with offlineMs := some 0 }).postProbe p else Work.begin s)) := by
    show powered s _ = _
    rw [powered_on hp]
  have polled : (Work.begin s).polled p = ((s.pocketLink p).state == .online || (s.pocketLink p).state == .unknown ||
    (s.pocketLink p).state == .fault) := rfl
  refine ⟨fun h => ?_, fun h => ?_, fun h hl hn hu => ?_, fun h => ?_⟩
  · have listens : (Work.begin s).polled p = true := by
      rw [polled]
      rcases h with h | h | h <;> rw [h] <;> rfl
    rw [turn]
    by_cases room : s.link.queue.length < 24
    · rw [if_pos ⟨ha, hc, listens, room⟩, Work.postPoll_eq, Work.finish_of_quiet _ rfl]
      have admits : ((Work.begin s).admits p .poll && !(Work.begin s).unsent p .poll) = true ↔
          s.unsent p .poll = false ∧ s.entryCount p < 3 := by
        show ((s.unsent p .poll || (decide (s.link.queue.length < 32) && decide (s.entryCount p < 3))) && !s.unsent p .poll) = true ↔ _
        have : s.link.queue.length < 32 := by omega
        cases s.unsent p .poll <;> simp [this]
      by_cases joins : s.unsent p .poll = false ∧ s.entryCount p < 3
      · rw [if_pos (admits.2 joins), if_pos ⟨room, joins⟩]
        rfl
      · rw [if_neg fun h => joins (admits.1 h), if_neg fun h => joins h.2, List.append_nil]
        rfl
    · rw [if_neg fun h => room h.2.2.2, if_neg fun h => room h.1]
      exact congrArg Host.Outcome.next (Work.finish_of_quiet _ rfl)
  · have silent : ¬ (Work.begin s).polled p = true := by
      rw [polled]
      rcases h with h | h <;> rw [h] <;> decide
    rw [turn, if_neg fun h => silent h.2.2.1]
    exact congrArg Host.Outcome.next (Work.finish_of_quiet _ rfl)
  · have admits : (Work.begin s).admits p .poll = true := by
      show (s.unsent p .poll || (decide (s.link.queue.length < 32) && decide (s.entryCount p < 3))) = true
      simp [hl, hn]
    rw [timer, if_pos ⟨ha, h⟩, Work.postProbe_joins (by exact admits) (by exact hu), Work.finish_of_quiet _ rfl]
    simp only [Work.onLink, Work.setQueue, State.pocketLink, upd_upd, upd_self]
    rfl
  · rw [timer, if_neg fun e => h e.2]
    exact congrArg Host.Outcome.next (Work.finish_of_quiet _ rfl)

/-! ### The backup domain and the resets (R140, R148, R151, R152, R154) -/

/-- Settles O50. -/
theorem backupDomainMeasuresTheOutage : Obligations.BackupDomainMeasuresTheOutage := by
  unfold Obligations.BackupDomainMeasuresTheOutage
  intro x s
  have count : exec .outageTimerCount s = .next (if s.outageCounts then
    { s with backup := { s.backup with timer := min 86400 (s.backup.timer + 1) } } else s) := rfl
  have on (b : Backup) : s.powered = false → exec (.powerOn x) s = .next (s.poweredUp x) := fun h => by
    show Host.Outcome.next ((if s.powered then s.collapsed else s).poweredUp x) = _
    rw [h]
    rfl
  refine ⟨fun hr hl hs => ?_, fun h => ?_, rfl, rfl, fun hp hl hv => ?_, fun hp h => ?_⟩
  · have counts : s.outageCounts = true := by
      rcases hs with h | h <;> simp [State.outageCounts, hr, hl, h]
    rw [count, if_pos counts]
  · have rests : ¬ s.outageCounts = true := by
      rcases h with h | ⟨h, h'⟩
      · simp [State.outageCounts, h]
      · simp [State.outageCounts, h, h']
    rw [count, if_neg rests]
  · have kept : s.backup.atPowerUp x.vbkGood = s.backup := by simp [Backup.atPowerUp, hl, hv]
    rw [on s.backup hp]
    show Host.Outcome.next (s.afterReset x (s.backup.atPowerUp x.vbkGood)) = _
    rw [kept]
  · have lost : s.backup.atPowerUp x.vbkGood = { timer := 0, running := false, valid := false, secondMs := 0, lost := false } := by
      rcases h with h | h <;> simp [Backup.atPowerUp, h]
    rw [on s.backup hp]
    show Host.Outcome.next (s.afterReset x (s.backup.atPowerUp x.vbkGood)) = _
    rw [lost]

theorem onExchange_off {s : State} (h : s.powered = false) (body : Work → Work) : onExchange s body = .next s := powered_off h _

/-- Settles O51. -/
theorem resetsKeepTheStore : Obligations.ResetsKeepTheStore := by
  unfold Obligations.ResetsKeepTheStore
  intro s
  have reset : exec .resetPin s = .next (if s.powered then s.resetVolatile else s) := rfl
  have collapse : exec .coreSupplyCollapse s = .next (if s.powered then s.collapsed else s) := rfl
  refine ⟨fun hp => ?_, fun hp => ?_, fun hp c h1 h2 h3 h4 h5 => ?_⟩
  · rw [reset, hp]
    rfl
  · rw [collapse, hp]
    rfl
  · cases c
    case powerOn x => exact absurd rfl (h1 x)
    case supplyBreak l => exact absurd rfl (h2 l)
    case mainsOkReturn l => exact absurd rfl (h3 l)
    case outageTimerCount => exact absurd rfl h4
    case vbkRetentionLoss => exact absurd rfl h5
    case resetPin =>
      rw [reset, hp]
      rfl
    case coreSupplyCollapse =>
      rw [collapse, hp]
      rfl
    case replyWindowExpiry => rw [exec, execReplyWindowExpiry, onExchange_off hp]
    case statusArrival => rw [exec, execStatusArrival, onExchange_off hp]
    case runAck => rw [exec, execRunAck, onExchange_off hp]
    case heatOnAck => rw [exec, execHeatOnAck, onExchange_off hp]
    case notReadyRetry => rw [exec, execNotReadyRetry, onExchange_off hp]
    case notReadyDoorOpen => rw [exec, execNotReadyDoorOpen, onExchange_off hp]
    case postedReply => rw [exec, execPostedReply, onExchange_off hp]
    all_goals
      dsimp only [exec]
      exact powered_off hp _

/-! ### Entering PLAN (R110, R155) -/

/-- The state without what bring-up and the planner's frame reads change: the link, the event marks of pockets and the operation
queue. -/
def State.offBringUp (s : State) : State :=
  { s with
    link := LinkCtl.reset, ctl := { s.ctl with queue := [] }
    events := { EventSet.empty with stateChange := s.events.stateChange, store := s.events.store, throttle := s.events.throttle } }

section
variable {a b : State} (h : a.offBringUp = b)
include h

theorem State.powered_of_offBringUp : a.powered = b.powered := (congrArg State.powered h :)
theorem State.part_of_offBringUp : a.part = b.part := (congrArg State.part h :)
theorem State.port_of_offBringUp : a.port = b.port := (congrArg State.port h :)
theorem State.stateChange_of_offBringUp : a.events.stateChange = b.events.stateChange :=
  (congrArg (fun s : State => s.events.stateChange) h :)
theorem State.sup_of_offBringUp : a.sup = b.sup := (congrArg State.sup h :)
theorem State.backup_of_offBringUp : a.backup = b.backup := (congrArg State.backup h :)
theorem State.store_of_offBringUp : a.store = b.store := (congrArg State.store h :)
theorem State.ctl_of_offBringUp : { a.ctl with queue := [] } = b.ctl := (congrArg State.ctl h :)
theorem State.ctxs_of_offBringUp : a.ctxs = b.ctxs := (congrArg State.ctxs h :)
theorem State.plan_of_offBringUp : a.plan = b.plan := (congrArg State.plan h :)
theorem State.sag_of_offBringUp : a.sag = b.sag := (congrArg State.sag h :)
theorem State.arb_of_offBringUp : a.arb = b.arb := (congrArg State.arb h :)
theorem State.heat_of_offBringUp : a.heat = b.heat := (congrArg State.heat h :)
theorem State.loaded_of_offBringUp : a.ctl.loaded = b.ctl.loaded := (congrArg (fun s : State => s.ctl.loaded) h :)

end

@[simp] theorem Work.setLinkState_offBringUp (w : Work) (p : Pocket) (x : LinkState) (c : Option FaultCause) :
    (w.setLinkState p x c).offBringUp = w.offBringUp := by
  unfold Work.setLinkState; split <;> rfl

@[simp] theorem Work.broadcastSafe_offBringUp (w : Work) : w.broadcastSafe.offBringUp = w.offBringUp := by
  unfold Work.broadcastSafe Work.sendBroadcast; split <;> rfl

@[simp] theorem Work.bringUp_offBringUp (w : Work) : w.bringUp.offBringUp = w.offBringUp := by
  unfold Work.bringUp
  dsimp only
  rw [Work.broadcastSafe_offBringUp, foldl_view State.offBringUp]
  · rfl
  · intro v p
    show State.offBringUp (ite _ _ _ : Work).toState = _
    split <;> simp

/-- What entering PLAN changes besides: the part state with its event, the planner's inputs with the window of the first pocket,
and after a reset the sag window timer. -/
theorem Work.enterPlan_offBringUp (w : Work) (dip : Bool) : (w.enterPlan dip).offBringUp =
    { (w.enter .plan).offBringUp with
      plan := { w.plan with first := Vector.replicate 32 none, images := if dip then Vector.replicate 32 none else w.plan.images,
                            step := .firstPolls, window := some ⟨0, 3000, none⟩ }
      sag := if dip then w.sag else { w.sag with windowMs := w.setting 11 * 1000, windowRuns := true } } := by
  have up := (w.enter .plan).bringUp_offBringUp
  have fold (v : Work) : (v.pockets.foldl (fun w p => if (w.ctl.mirror[p]).valid then w.enqueue (.plannerRead p (w.ctl.mirror[p]).frame) else w)
      v).offBringUp = v.offBringUp := foldl_view State.offBringUp _ (fun w p => by split <;> rfl) _ v
  have plan : (w.enter .plan).bringUp.plan = w.plan := (State.plan_of_offBringUp up).trans rfl
  have sag : (w.enter .plan).bringUp.sag = w.sag := (State.sag_of_offBringUp up).trans rfl
  have loaded : (w.enter .plan).bringUp.ctl.loaded = w.ctl.loaded := (State.loaded_of_offBringUp up).trans rfl
  unfold Work.enterPlan Work.openWindow
  dsimp only
  rw [Work.postPoll_eq]
  generalize (w.enter .plan).bringUp = v at up plan sag loaded ⊢
  cases dip
  · have setting : v.setting 11 = w.setting 11 := congrArg (Settings.item · 11) loaded
    simp only [Bool.false_eq_true, if_false, plan, sag, setting, ← up]
    rfl
  · simp only [if_true, plan, sag, ← up]
    have folded := fold { v with plan := { w.plan with first := Vector.replicate 32 none, images := Vector.replicate 32 none } }
    have queued (u : Work) (h : u.offBringUp = { v.offBringUp with plan := { w.plan with first := Vector.replicate 32 none, images := Vector.replicate 32 none } })
        (q : List Entry) : State.offBringUp (Work.setQueue { u with plan := { u.plan with step := .firstPolls, window := some ⟨0, 3000, none⟩ } } q).toState =
        { v.offBringUp with plan := { w.plan with first := Vector.replicate 32 none, images := Vector.replicate 32 none, step := .firstPolls, window := some ⟨0, 3000, none⟩ }
                            sag := v.sag } := by
      have plan : u.plan = { w.plan with first := Vector.replicate 32 none, images := Vector.replicate 32 none } := (congrArg State.plan h :)
      refine (congrArg (fun s : State => { s with plan := { u.plan with step := .firstPolls, window := some ⟨0, 3000, none⟩ } }) h).trans ?_
      rw [plan]
      rfl
    rw [← sag]
    exact queued _ folded _

/-! ### Settling (R137, R139, R149) -/

/-- PLAN is entered at once, owing nothing (R110, R139). -/
theorem Work.enterPlan_finish (w : Work) (dip : Bool) : (w.enterPlan dip).finish = (w.enterPlan dip).toState := by
  have plan : (w.enterPlan dip).part = .plan := State.part_of_offBringUp (w.enterPlan_offBringUp dip)
  exact Work.finish_outside_active _ (by simp [plan])

/-- Settles O49. -/
theorem mainsSettles : Obligations.MainsSettles := by
  unfold Obligations.MainsSettles
  intro input s hp
  have settle : exec .settleTimeReached s = .next (if (s.sup.linesGood && !s.sup.settled) = true then (Work.begin s).settled else Work.begin s).finish :=
    powered_on hp _
  refine ⟨fun h => ?_, fun h => ?_, ?_, fun h => ?_, fun hl hs => ⟨fun h1 h2 => ?_, fun h => ?_⟩⟩
  · rw [exec, execSupplyBreak, if_pos hp, powered_on hp]
    dsimp only
    rw [if_pos (by exact h)]
    exact congrArg Host.Outcome.next (Work.finish_of_quiet _ rfl)
  · rw [exec, execSupplyBreak, if_pos hp, powered_on hp]
    dsimp only
    rw [if_neg (by simp [h])]
    exact congrArg Host.Outcome.next (Work.finish_of_quiet _ rfl)
  · cases input with
    | line l => cases l <;> rfl
    | vbk => rfl
  · rw [settle, if_neg (by rcases h with h | h <;> simp [h])]
    exact congrArg Host.Outcome.next (Work.finish_of_quiet _ rfl)
  · rw [settle, if_pos (by simp [hl, hs])]
    have stays : (Work.begin s).settled = { Work.begin s with
        sup := { s.sup with settleMs := s.setting 5 * 1000, settled := true }, backup := { s.backup with secondMs := 0 } } := by
      unfold Work.settled
      dsimp only
      split
      · contradiction
      · contradiction
      · rfl
    rw [stays]
    exact congrArg Host.Outcome.next (Work.finish_of_quiet _ rfl)
  · rw [settle, if_pos (by simp [hl, hs])]
    have entered : ∃ dip, (Work.begin s).settled = Work.enterPlan { Work.begin s with
        sup := { s.sup with settleMs := s.setting 5 * 1000, settled := true }, backup := { s.backup with secondMs := 0 } } dip := by
      unfold Work.settled
      dsimp only
      rcases h with h | ⟨h, hd⟩
      · exact ⟨true, by rw [Work.begin_part, h]; rfl⟩
      · exact ⟨false, by rw [Work.begin_part, h]; exact if_pos hd⟩
    obtain ⟨dip, entered⟩ := entered
    rw [entered, Work.enterPlan_finish]
    have view := Work.enterPlan_offBringUp { Work.begin s with
        sup := { s.sup with settleMs := s.setting 5 * 1000, settled := true }, backup := { s.backup with secondMs := 0 } } dip
    refine ⟨_, rfl, State.part_of_offBringUp view, ?_, ?_, ?_, State.stateChange_of_offBringUp view, (State.store_of_offBringUp view).trans rfl,
      (State.ctxs_of_offBringUp view).trans rfl, (State.port_of_offBringUp view).trans rfl, (State.backup_of_offBringUp view).trans rfl⟩
    · rw [State.sup_of_offBringUp view]
      rfl
    · rw [State.plan_of_offBringUp view]
    · rw [State.plan_of_offBringUp view]
      rfl

end Sys2Proof.Machine
end
section
/-! SUPPORT. What convergence leaves of the link records, and what the end of a command can do, step by step (R93, R96, R119, R131). -/

namespace Sys2Proof.Machine

/-! ### Link records under convergence -/

/-- A link record without what posting and purging commands changes: whether STOP and HEAT_OFF have been posted, latch seen, and
what is owed or lost. -/
def PocketLink.core (l : PocketLink) : PocketLink :=
  { l with stopPosted := false, heatOffPosted := false, latchSeen := false, safeOwed := false, probeOwed := false, heatLost := false }

/-- The link records of all pockets, so viewed. -/
def State.cores (s : State) : Vector PocketLink 32 := s.link.pockets.map PocketLink.core

theorem State.core_of_cores {s t : State} (h : t.cores = s.cores) (p : Pocket) : (t.pocketLink p).core = (s.pocketLink p).core := by
  have view (u : State) : u.cores[p] = (u.pocketLink p).core := Vector.getElem_map _ p.isLt
  rw [← view, ← view, h]

theorem Work.onLink_cores (w : Work) (p : Pocket) {f : PocketLink → PocketLink} (h : ∀ l, (f l).core = l.core) :
    (w.onLink p f).cores = w.cores := by
  refine Vector.ext fun i hi => ?_
  show ((upd w.link.pockets p (f w.link.pockets[p])).map PocketLink.core)[i] = (w.link.pockets.map PocketLink.core)[i]
  rw [Vector.getElem_map, Vector.getElem_map]
  by_cases e : p.val = i
  · subst e
    exact (congrArg PocketLink.core (upd_self _ _ _)).trans (h _)
  · exact congrArg PocketLink.core (upd_other (q := ⟨i, hi⟩) _ _ fun c => e (congrArg Fin.val c).symm)

section
variable (w : Work) (p : Pocket)

@[simp] theorem Work.clearLatchSeen_cores (es : List Entry) : ∀ w : Work, (w.clearLatchSeen es).cores = w.cores := by
  induction es with
  | nil => exact fun _ => rfl
  | cons e es ih =>
    intro w
    unfold Work.clearLatchSeen
    split
    · exact (ih _).trans (Work.onLink_cores _ _ (by exact fun _ => rfl))
    · exact ih _

@[simp] theorem Work.leave_cores (left stay : List Entry) : (w.leave left stay).cores = w.cores := by
  unfold Work.leave
  split
  · rfl
  · exact Work.clearLatchSeen_cores _ _

@[simp] theorem Work.dropEntries_cores (g : Entry → Bool) : (w.dropEntries g).cores = w.cores := Work.leave_cores _ _ _

@[simp] theorem Work.dropNewest_cores (g : Entry → Bool) : (w.dropNewest g).cores = w.cores := Work.leave_cores _ _ _

@[simp] theorem Work.oweProbe_cores (e : Option Entry) : (w.oweProbe e).cores = w.cores := by
  unfold Work.oweProbe
  split
  · split
    · exact Work.onLink_cores _ _ (by exact fun _ => rfl)
    · rfl
  · rfl

@[simp] theorem Work.makeRoom_cores : w.makeRoom.cores = w.cores := by
  unfold Work.makeRoom
  split
  · rfl
  · split <;> simp

@[simp] theorem Work.putSafe_cores : (w.putSafe p).cores = w.cores := by
  have owed (w : Work) (b : Bool) : (w.onLink p fun l => { l with safeOwed := b }).cores = w.cores := Work.onLink_cores _ _ (by exact fun _ => rfl)
  have queued (w : Work) (q : List Entry) : (w.setQueue q).cores = w.cores := rfl
  unfold Work.putSafe
  dsimp only
  split
  · simp
  · split <;> simp [owed, queued]

theorem foldl_cores {α : Type} (f : Work → α → Work) (h : ∀ w a, (f w a).cores = w.cores) (l : List α) (w : Work) :
    (l.foldl f w).cores = w.cores := foldl_view State.cores f h l w

@[simp] theorem Work.admitSafes_cores : w.admitSafes.cores = w.cores := by
  unfold Work.admitSafes
  split
  · exact foldl_cores _ (fun v q => by split <;> simp) _ w
  · rfl

@[simp] theorem Work.removeEntries_cores (g : Entry → Bool) : (w.removeEntries g).cores = w.cores := by
  unfold Work.removeEntries
  split <;> simp

@[simp] theorem Work.join_cores (k : CommandKind) : (w.join p k).cores = w.cores := by
  unfold Work.join
  split <;> rfl

@[simp] theorem Work.releaseReservation_cores : (w.releaseReservation p).cores = w.cores := by
  unfold Work.releaseReservation
  split <;> rfl

@[simp] theorem Work.demandRead_cores (why : ReadPurpose) : (w.demandRead p why).cores = w.cores := by
  unfold Work.demandRead
  split <;> rfl

@[simp] theorem Work.convergeMotor_cores : (w.convergeMotor p).cores = w.cores := by
  unfold Work.convergeMotor Work.postStop Work.postRun
  split
  · split
    · refine (Work.onLink_cores _ _ (by exact fun _ => rfl)).trans ?_
      simp
    · rfl
  · split
    · split <;> simp
    · rfl

@[simp] theorem Work.convergeLevel_cores : (w.convergeLevel p).cores = w.cores := by
  have queued (w : Work) (q : List Entry) : (w.setQueue q).cores = w.cores := rfl
  unfold Work.convergeLevel Work.postHeatOn
  split
  · split <;> simp [queued]
  · split <;> simp

@[simp] theorem Work.convergeHeat_cores : (w.convergeHeat p).cores = w.cores := by
  unfold Work.convergeHeat Work.postHeatOff
  split
  · split
    · rw [Work.releaseReservation_cores]
      refine (Work.onLink_cores _ _ (by exact fun _ => rfl)).trans ?_
      simp
    · rfl
  · split
    · rw [Work.convergeLevel_cores]
      split
      · exact Work.onLink_cores _ _ (by exact fun _ => rfl)
      · rfl
    · rfl

@[simp] theorem Work.convergeOne_cores : (w.convergeOne p).cores = w.cores := by
  unfold Work.convergeOne
  split <;> simp

@[simp] theorem Work.postProbe_cores : (w.postProbe p).cores = w.cores := by
  have owed (w : Work) (b : Bool) : (w.onLink p fun l => { l with probeOwed := b }).cores = w.cores := Work.onLink_cores _ _ (by exact fun _ => rfl)
  unfold Work.postProbe
  split <;> simp [owed]

end

/-! ### A grant before its convergence (R120) -/

/-- The state in which `q` has been granted its request at level `n`, before convergence posts the RUN. -/
def Work.granted (w : Work) (q : Pocket) (n : Nat) : Work :=
  Work.onLink (Work.onCtx { w with arb := { w.arb with
    requests := upd w.arb.requests q none
    slots := w.arb.slots ++ [{ pocket := q, stage := .awaitAck, level := n, timerMs := w.setting 10 * 100, carried := none, doorRefused := false }]
    sinceGrant := some 0 } } q fun c => if c.awaitsTumble then { c with tumbleGranted := true } else c) q
    fun l => { l with runAuthority := true }

section
variable (w : Work) (q : Pocket) (n : Nat)

theorem Work.grantTo_eq : w.grantTo q n = (w.granted q n).converge q := rfl

theorem Work.onCtx_link (p : Pocket) (f : Context → Context) : (w.onCtx p f).link = w.link := by
  unfold Work.onCtx
  split <;> rfl

theorem Work.ctx_setCtx_self (p : Pocket) (x : Option Context) : (w.setCtx p x).ctx p = x := upd_self _ _ _

theorem Work.ctx_setCtx_other {p q : Pocket} (x : Option Context) (h : q ≠ p) : (w.setCtx p x).ctx q = w.ctx q := upd_other _ _ h

theorem Work.ctx_onCtx_other {p q : Pocket} (f : Context → Context) (h : q ≠ p) : (w.onCtx p f).ctx q = w.ctx q := by
  unfold Work.onCtx
  split
  · exact w.ctx_setCtx_other _ h
  · rfl

theorem Work.ctx_onCtx_self (p : Pocket) (f : Context → Context) : (w.onCtx p f).ctx p = (w.ctx p).map f := by
  unfold Work.onCtx
  split
  · rename_i c hc
    rw [w.ctx_setCtx_self, hc]
    rfl
  · rename_i hc
    rw [hc]
    rfl

@[simp] theorem Work.granted_queue : (w.granted q n).link.queue = w.link.queue :=
  (congrArg LinkCtl.queue (Work.onCtx_link _ q _) :)

theorem Work.granted_pocketLink_self : (w.granted q n).pocketLink q = { w.pocketLink q with runAuthority := true } := by
  unfold Work.granted
  rw [Work.pocketLink_onLink_self]
  unfold State.pocketLink
  rw [Work.onCtx_link]

theorem Work.granted_pocketLink_other {p : Pocket} (h : p ≠ q) : (w.granted q n).pocketLink p = w.pocketLink p := by
  unfold Work.granted
  rw [Work.pocketLink_onLink_other _ _ h]
  unfold State.pocketLink
  rw [Work.onCtx_link]

/-- A grant concerns a link record in its RUN authority alone. -/
theorem Work.granted_pocketLink (p : Pocket) {α : Type} {f : PocketLink → α} (h : ∀ (l : PocketLink) (b : Bool), f { l with runAuthority := b } = f l) :
    f ((w.granted q n).pocketLink p) = f (w.pocketLink p) := by
  by_cases e : p = q
  · subst e
    rw [Work.granted_pocketLink_self, h]
  · rw [Work.granted_pocketLink_other _ _ _ e]

theorem Work.granted_arb : (w.granted q n).arb = { w.arb with
    requests := upd w.arb.requests q none
    slots := w.arb.slots ++ [{ pocket := q, stage := .awaitAck, level := n, timerMs := w.setting 10 * 100, carried := none, doorRefused := false }]
    sinceGrant := some 0 } := by
  unfold Work.granted
  exact Work.onCtx_arb _ _ _

theorem Work.granted_heat : (w.granted q n).heat = w.heat := by
  unfold Work.granted Work.onCtx
  split <;> rfl

@[simp] theorem Work.granted_ctl : (w.granted q n).ctl = w.ctl := by
  unfold Work.granted Work.onCtx
  split <;> rfl

@[simp] theorem Work.granted_part : (w.granted q n).part = w.part := by
  unfold Work.granted Work.onCtx
  split <;> rfl

theorem Work.granted_ctx_other {p : Pocket} (h : p ≠ q) : (w.granted q n).ctx p = w.ctx p :=
  Work.ctx_onCtx_other { w with arb := _ } _ h

theorem Work.granted_ctx_self : (w.granted q n).ctx q = (w.ctx q).map fun c => if c.awaitsTumble then { c with tumbleGranted := true } else c :=
  Work.ctx_onCtx_self { w with arb := _ } q _

/-- A grant leaves the fast fields of every record. -/
theorem Work.granted_fast (p : Pocket) : ((w.granted q n).ctx p).map (·.fast) = (w.ctx p).map (·.fast) := by
  by_cases e : p = q
  · subst e
    rw [Work.granted_ctx_self]
    cases w.ctx p with
    | none => rfl
    | some c =>
      show some (Context.fast (if _ then _ else _)) = _
      split <;> rfl
  · rw [Work.granted_ctx_other _ _ _ e]

end

/-! ### The end of a command, step by step -/

/-- What is kept by all that the end of a command does: a run of convergence, an owed probe posted, a wait list served of its head, and
a request granted, each of the latter before its convergence. -/
structure KeptAtEnd (P : State → Prop) : Prop where
  converge : ∀ (w : Work) (q : Pocket), P w.toState → P (w.convergeOne q).toState
  probe : ∀ (w : Work) (q : Pocket), (w.pocketLink q).probeOwed = true → P w.toState → P (w.postProbe q).toState
  serve : ∀ (w : Work) (x : SupplyPhase) (q : Pocket) (r : List Pocket), w.waitList x = q :: r → P w.toState →
    P { (w.setWaitList x r).toState with heat := { (w.setWaitList x r).heat with reserved := upd w.heat.reserved q (some (w.draw q)) } }
  grant : ∀ (w : Work) (q : Pocket) (n : Nat), w.request q = some n → P w.toState → P (w.granted q n).toState

theorem foldl_keeps {P : State → Prop} {α : Type} {f : Work → α → Work} (hf : ∀ w a, P w.toState → P (f w a).toState) :
    ∀ (l : List α) {w : Work}, P w.toState → P (l.foldl f w).toState := by
  intro l
  induction l with
  | nil => exact fun h => h
  | cons a l ih => exact fun h => ih (hf _ a h)

section
variable {P : State → Prop} (K : KeptAtEnd P) {w : Work}
include K

theorem KeptAtEnd.convergeWhere (f : Pocket → Bool) (h : P w.toState) :
    P (allPockets.foldl (fun (v : Work) p => if f p then v.convergeOne p else v) w).toState :=
  foldl_keeps (fun v p hv => by split; exacts [K.converge v p hv, hv]) _ h

theorem KeptAtEnd.admitProbes (h : P w.toState) : P w.admitProbes.toState := by
  unfold Work.admitProbes
  split
  · refine foldl_keeps (fun v p hv => ?_) _ h
    split
    · next owed => exact K.probe v p (Bool.and_eq_true_iff.1 owed).1 hv
    · exact hv
  · exact h

theorem KeptAtEnd.admitHeld (h : P w.toState) : P w.admitHeld.toState := by
  unfold Work.admitHeld
  split
  · rename_i m _
    exact K.admitProbes (K.convergeWhere (w := { w with room := none }) (fun p => m.has p && true) h)
  · exact h

theorem KeptAtEnd.convergeAll (h : P w.toState) (q : Pocket) : P (w.converge q).toState := K.admitHeld (K.converge w q h)

theorem KeptAtEnd.servePhase (x : SupplyPhase) : ∀ (n : Nat) {w : Work}, P w.toState → P (Work.servePhase x n w).toState
  | 0, _, h => h
  | n + 1, w, h => by
    unfold Work.servePhase
    split
    · rename_i q r hl
      split
      · refine KeptAtEnd.servePhase x n (K.convergeAll ?_ q)
        have served := K.serve w x q r hl h
        cases x <;> exact served
      · exact h
    · exact h

theorem KeptAtEnd.serveLists (h : P w.toState) : P w.serveLists.toState := by
  unfold Work.serveLists
  split
  · exact h
  · exact K.servePhase .c 32 (K.servePhase .b 32 (K.servePhase .a 32 h))

theorem KeptAtEnd.evaluateGrants : ∀ (n : Nat) {w : Work}, P w.toState → P (Work.evaluateGrants n w).toState
  | 0, _, h => h
  | n + 1, w, h => by
    unfold Work.evaluateGrants
    split
    · split
      · rename_i q m hw
        exact KeptAtEnd.evaluateGrants n (K.convergeAll (K.grant w q m (State.request_of_winner hw) h) q)
      · exact h
    · exact h

theorem KeptAtEnd.settleOnce (h : P w.toState) : P w.settleOnce.toState := by
  have cond (b : Bool) (v v' : Work) (hv : P v.toState) (hv' : P v.toState → P v'.toState) : P (if b then v' else v).toState := by
    split
    · exact hv' hv
    · exact hv
  unfold Work.settleOnce
  dsimp only
  refine cond _ _ _ (cond _ _ _ (cond _ _ _ (K.convergeWhere _ ?_) K.admitProbes) K.serveLists) (K.evaluateGrants 5)
  exact K.admitHeld h

theorem KeptAtEnd.settle : ∀ (n : Nat) {w : Work}, P w.toState → P (Work.settle n w).toState
  | 0, _, h => h
  | n + 1, w, h => by
    unfold Work.settle
    split
    · exact h
    · exact KeptAtEnd.settle n (K.settleOnce h)

/-- **What is kept step by step is kept by the end of a command.** -/
theorem KeptAtEnd.finish (h : P w.toState) : P w.finish := K.settle 8 h

end

end Sys2Proof.Machine
end
section
/-! SUPPORT. Slots that are released and granted (section 6.3). -/

namespace Sys2Proof.Machine

/-! ### Fields of a link record that convergence leaves -/

section
variable {a b : PocketLink} (h : a.core = b.core)
include h

theorem PocketLink.state_of_core : a.state = b.state := (congrArg PocketLink.state h :)
theorem PocketLink.cause_of_core : a.cause = b.cause := (congrArg PocketLink.cause h :)
theorem PocketLink.motorBelieved_of_core : a.motorBelieved = b.motorBelieved := (congrArg PocketLink.motorBelieved h :)
theorem PocketLink.heatBelieved_of_core : a.heatBelieved = b.heatBelieved := (congrArg PocketLink.heatBelieved h :)
theorem PocketLink.startAttempts_of_core : a.startAttempts = b.startAttempts := (congrArg PocketLink.startAttempts h :)
theorem PocketLink.exhaust_of_core : a.exhaust = b.exhaust := (congrArg PocketLink.exhaust h :)
theorem PocketLink.offlineMs_of_core : a.offlineMs = b.offlineMs := (congrArg PocketLink.offlineMs h :)
theorem PocketLink.runAuthority_of_core : a.runAuthority = b.runAuthority := (congrArg PocketLink.runAuthority h :)

end

theorem State.ctxs_of_offLink {a b : State} (h : a.offLink = b.offLink) : a.ctxs = b.ctxs := (congrArg State.ctxs h :)

theorem State.motorDesired_of_ctxs {a b : State} (h : a.ctxs = b.ctxs) (p : Pocket) : a.motorDesired p = b.motorDesired p := by
  unfold State.motorDesired State.ctx
  rw [h]

/-! ### The RUN authority (R97) -/

theorem Work.endAuthority_runAuthority (w : Work) (p : Pocket) : ((w.endAuthority p).pocketLink p).runAuthority = false := by
  unfold Work.endAuthority
  split
  · rw [PocketLink.runAuthority_of_core (State.core_of_cores (Work.removeEntries_cores _ _) p), Work.pocketLink_onLink_self]
  · rename_i h
    exact Bool.eq_false_iff.2 h

theorem Work.endAuthority_state (w : Work) (p q : Pocket) : ((w.endAuthority p).pocketLink q).state = (w.pocketLink q).state := by
  unfold Work.endAuthority
  split
  · rw [PocketLink.state_of_core (State.core_of_cores (Work.removeEntries_cores _ _) q)]
    by_cases e : q = p
    · subst e
      rw [Work.pocketLink_onLink_self]
    · rw [Work.pocketLink_onLink_other _ _ e]
  · rfl

/-! ### Pockets that no grant concerns -/

/-- The pocket has no request and no slot (R112, R121). -/
def State.asksNothing (s : State) (p : Pocket) : Prop := s.request p = none ∧ s.slotOf p = none

theorem State.asksNothing_of_arb {s t : State} (h : t.arb = s.arb) {p : Pocket} (hs : s.asksNothing p) : t.asksNothing p := by
  unfold State.asksNothing State.request State.slotOf at *
  rw [h]
  exact hs

/-- A pocket without a request gets no slot at a command's end (R120). -/
theorem State.asksNothing_kept (p : Pocket) : KeptAtEnd fun s => s.asksNothing p where
  converge w q h := State.asksNothing_of_arb (Work.convergeOne_arb w q) h
  probe w q _ h := State.asksNothing_of_arb (Work.postProbe_arb w q) h
  serve w x q r _ h := State.asksNothing_of_arb (Work.setWaitList_arb w x r) h
  grant w q n hq h := by
    have other : p ≠ q := fun e => by rw [← e, h.1] at hq; cases hq
    have free : w.arb.slots.find? (·.pocket == p) = none := h.2
    unfold State.asksNothing State.request State.slotOf
    rw [Work.granted_arb]
    refine ⟨(upd_other _ _ other).trans h.1, ?_⟩
    rw [List.find?_append, free]
    simp [Ne.symm other]

/-- And no RUN authority (R97). -/
theorem State.asksNothing_withoutAuthority_kept (p : Pocket) :
    KeptAtEnd fun s => s.asksNothing p ∧ (s.pocketLink p).runAuthority = false where
  converge w q h := ⟨(State.asksNothing_kept p).converge w q h.1,
    (PocketLink.runAuthority_of_core (State.core_of_cores (Work.convergeOne_cores w q) p)).trans h.2⟩
  probe w q owed h := ⟨(State.asksNothing_kept p).probe w q owed h.1,
    (PocketLink.runAuthority_of_core (State.core_of_cores (Work.postProbe_cores w q) p)).trans h.2⟩
  serve w x q r hl h := ⟨(State.asksNothing_kept p).serve w x q r hl h.1, by cases x <;> exact h.2⟩
  grant w q n hq h := ⟨(State.asksNothing_kept p).grant w q n hq h.1, by
    have other : p ≠ q := fun e => by rw [← e, h.1.1] at hq; cases hq
    rw [Work.granted_pocketLink_other _ _ _ other]
    exact h.2⟩

theorem Work.releaseSlot_slotOf (w : Work) (p : Pocket) : (w.releaseSlot p).slotOf p = none := by
  show (w.arb.slots.filter (·.pocket != p)).find? (·.pocket == p) = none
  rw [List.find?_eq_none]
  intro x hx
  simpa using (List.mem_filter.1 hx).2

/-- Settles O45. -/
theorem slotsAreReleased : Obligations.SlotsAreReleased := by
  unfold Obligations.SlotsAreReleased
  intro p x s hp ha hx hr
  have released : ((Work.begin s).releaseSlot p).asksNothing p := ⟨hr, Work.releaseSlot_slotOf _ p⟩
  have inStage {st : SlotStage} (h : x.stage = st) : (Work.begin s).slotIn p st = some x := by
    show (if s.part = .active then (s.slotOf p).filter fun x => x.stage == st else none) = some x
    rw [if_pos ha, hx]
    simp [h]
  have window : exec (.startWindowEnd p) s = execStartWindowEnd p s := rfl
  have timeout : exec (.grantTimeout p) s = execGrantTimeout p s := rfl
  have ended := ((Work.begin s).releaseSlot p).endAuthority_offLink p
  have desired : (((Work.begin s).releaseSlot p).endAuthority p).motorDesired p = s.motorDesired p :=
    State.motorDesired_of_ctxs (State.ctxs_of_offLink ended) p
  have state : ((((Work.begin s).releaseSlot p).endAuthority p).pocketLink p).state = (s.pocketLink p).state := Work.endAuthority_state _ p p
  refine ⟨fun hs h => ?_, fun n hs hc hd hb => ?_, fun hs h => ?_, fun hs hn hd ho => ?_⟩
  · rw [window, execStartWindowEnd, powered_on hp]
    simp only [inStage hs]
    obtain ⟨request, slot⟩ := (State.asksNothing_kept p).finish released
    have ends : leads (.next ((Work.begin s).releaseSlot p).finish) fun t => t.slotOf p = none ∧ t.request p = none ∧ t.offGrant = s.offGrant :=
      ⟨_, rfl, slot, request, Work.finish_offGrant _⟩
    split
    · rename_i n hc
      rw [if_neg]
      · exact ends
      · show ¬ (s.motorDesired p && !(s.pocketLink p).motorBelieved) = true
        rcases h with h | h | h <;> simp_all
    · exact ends
  · have starts : (((Work.begin s).releaseSlot p).motorDesired p && !(((Work.begin s).releaseSlot p).pocketLink p).motorBelieved) = true := by
      show (s.motorDesired p && !(s.pocketLink p).motorBelieved) = true
      rw [hd, hb]
      rfl
    rw [window, execStartWindowEnd, powered_on hp]
    simp only [inStage hs, hc, if_pos starts]
    refine ⟨_, rfl, Work.finish_wants (Work.makeRequest_wants _ _ _), ?_⟩
    rw [Work.finish_offGrant]
    exact State.offGrant_of_offLink (Work.makeRequest_offLink _ _ _)
  · have refused : ¬ (!x.doorRefused && (((Work.begin s).releaseSlot p).endAuthority p).motorDesired p &&
        ((((Work.begin s).releaseSlot p).endAuthority p).pocketLink p).state == .online) = true := by
      rw [desired, state]
      rcases h with h | h | h <;> simp [h]
    rw [timeout, execGrantTimeout, powered_on hp]
    simp only [inStage hs, if_neg refused]
    obtain ⟨⟨request, slot⟩, authority⟩ := (State.asksNothing_withoutAuthority_kept p).finish
      (w := ((Work.begin s).releaseSlot p).endAuthority p) ⟨State.asksNothing_of_arb (Work.endAuthority_arb _ p) released,
        Work.endAuthority_runAuthority _ p⟩
    refine ⟨_, rfl, slot, request, authority, ?_⟩
    rw [Work.finish_offGrant]
    exact State.offGrant_of_offLink ended
  · have returns : (!x.doorRefused && (((Work.begin s).releaseSlot p).endAuthority p).motorDesired p &&
        ((((Work.begin s).releaseSlot p).endAuthority p).pocketLink p).state == .online) = true := by
      rw [desired, state, hn, hd, ho]
      rfl
    rw [timeout, execGrantTimeout, powered_on hp]
    simp only [inStage hs, if_pos returns]
    refine ⟨_, rfl, Work.finish_wants (Work.makeRequest_wants _ _ _), ?_⟩
    rw [Work.finish_offGrant]
    exact State.offGrant_of_offLink ((Work.makeRequest_offLink _ _ _).trans ended)

end Sys2Proof.Machine
end
section
/-! SUPPORT. What the planner decides (section 8.4): DONE and STAGED records, and the resumptions that may follow. -/

namespace Sys2Proof.Machine

theorem PlanInputs.image_sound {i : PlanInputs} (h : i.damagedRecord = false) : i.image.damaged = false := (Bool.or_eq_false_iff.1 h).1

/-! ### DONE and STAGED (R170) -/

/-- In DONE and STAGED a DOOR or LINK hold of the image is dropped (R164). -/
theorem heldBefore_of_resting {f : Fast} (h : f.phase = .done ∨ f.phase = .staged) :
    heldBefore f = if f.hold = .door ∨ f.hold = .link then .none else f.hold := by
  unfold heldBefore
  rcases h with h | h <;> cases hf : f.hold <;> simp [h]

theorem PlanInputs.outcome_done {i : PlanInputs} (hd : i.damagedRecord = false) (hh : i.fast.hold ≠ .damaged) (hp : i.fast.phase = .done) :
    i.outcome = i.planDone { i.fast with
      status := .none, cls := none, level := none, interrupted := none, hold := heldBefore i.fast } := by
  have sound := PlanInputs.image_sound hd
  simp [PlanInputs.outcome, sound, hh, hd, hp, heldBefore]

theorem PlanInputs.outcome_staged {i : PlanInputs} (hd : i.damagedRecord = false) (hh : i.fast.hold ≠ .damaged) (hp : i.fast.phase = .staged) :
    i.outcome = i.committed { i.fast with
      status := .none, cls := none, level := none, interrupted := none, hold := heldBefore i.fast } := by
  have sound := PlanInputs.image_sound hd
  simp [PlanInputs.outcome, sound, hh, hd, hp, heldBefore]

/-- Settles O54: no earlier rule of R164 applies, so the record is committed as it is, or judged by its door. -/
theorem doneAndStagedStayAsTheyWere : Obligations.DoneAndStagedStayAsTheyWere := by
  unfold Obligations.DoneAndStagedStayAsTheyWere
  intro i hd hh
  refine ⟨fun hp => ?_, fun hp => ?_⟩
  · rw [PlanInputs.outcome_done hd hh hp, heldBefore_of_resting (.inl hp)]
    refine ⟨fun door auto => ?_, fun door manual => ?_, fun shut => ?_⟩
    · simp [PlanInputs.planDone, PlanInputs.doorJudged, door, PlanInputs.autoRetire, auto]
    · simp [PlanInputs.planDone, PlanInputs.doorJudged, door, PlanInputs.autoRetire, manual, PlanInputs.committed, Fast.endResume]
    · simp [PlanInputs.planDone, PlanInputs.doorJudged, shut, PlanInputs.committed]
  · rw [PlanInputs.outcome_staged hd hh hp, heldBefore_of_resting (.inr hp)]
    rfl

/-! ### Which resumptions are planned (R164 to R171) -/

/-- The fast fields `g` may be committed: no class and no heating by itself, or one of the three resumptions, a REHEAT only
below the hazard temperature with the door shut, without ASK and from a whole image. -/
inductive PlanInputs.Plans (i : PlanInputs) (g : Fast) : Prop where
  | idle (status : g.status = .none) (cls : g.cls = none) (level : g.level = none) (waits : g.phase = .heat → g.hold ≠ .none)
  | cools {n : Nat} (status : g.status = .pending) (cls : g.cls = some .coolFirst) (level : g.level = some n) (least : 12 ≤ n) (most : n ≤ 15)
      (phase : g.phase = .cool)
  | heats (status : g.status = .pending) (cls : g.cls = some .reheat) (level : g.level = some 9) (phase : g.phase = .heat)
      (cold : i.res < i.settings.item 20) (shut : i.door = false) (unasked : i.statics.options.ask = false) (whole : i.image.damaged = false)
  | tumbles (status : g.status = .pending) (cls : g.cls = some .creaseOn) (level : g.level = some 5) (phase : g.phase = .crease)

/-- An outcome that retires the record, or commits fast fields that may be planned, raising the outage count of the image. -/
def PlanInputs.Allows (i : PlanInputs) (o : PlanOutcome) : Prop :=
  o = .retire ∨ ∃ g, i.Plans g ∧ g.outage = i.fast.outage ∧ o = i.committed g

theorem PlanInputs.allows_of_plans {i : PlanInputs} {g : Fast} (h : i.Plans g) (ho : g.outage = i.fast.outage) : i.Allows (i.committed g) :=
  .inr ⟨g, h, ho, rfl⟩

/-- The fast fields carry no resumption, as the image's do when the rules are tried. -/
structure PlanInputs.Unplanned (i : PlanInputs) (f : Fast) : Prop where
  status : f.status = .none
  cls : f.cls = none
  level : f.level = none
  outage : f.outage = i.fast.outage

theorem HoldCause.holds_of_rank {a b : HoldCause} (h : a.rank < b.rank) : b ≠ .none := by
  rintro rfl
  exact absurd h (Nat.not_lt_zero _)

section
variable {i : PlanInputs} {f : Fast} (u : i.Unplanned f)
include u

theorem PlanInputs.allows_idle {g : Fast} (hs : g.status = f.status) (hc : g.cls = f.cls) (hl : g.level = f.level)
    (ho : g.outage = f.outage) (waits : g.phase = .heat → g.hold ≠ .none) : i.Allows (i.committed g) :=
  PlanInputs.allows_of_plans (.idle (hs.trans u.status) (hc.trans u.cls) (hl.trans u.level) waits) (ho.trans u.outage)

theorem PlanInputs.allows_doorJudged {o : PlanOutcome} (hp : f.phase ≠ .heat) (h : i.doorJudged f = some o) : i.Allows o := by
  unfold PlanInputs.doorJudged at h
  split at h
  · cases h
  · split at h
    · exact .inl (Option.some.inj h).symm
    · rw [← Option.some.inj h]
      exact PlanInputs.allows_idle u u.status.symm u.cls.symm u.level.symm rfl fun heat => absurd heat hp

theorem PlanInputs.allows_planDamaged : i.Allows (i.planDamaged f) :=
  PlanInputs.allows_of_plans (.cools rfl rfl rfl (by decide) (by decide) rfl) u.outage

theorem PlanInputs.allows_planHazard : i.Allows (i.planHazard f) := by
  unfold PlanInputs.planHazard
  refine .inr ⟨_, .cools (n := i.hazardLevel) rfl rfl rfl (Nat.le_add_right _ _) ?_ rfl, ?_, rfl⟩
  · unfold PlanInputs.hazardLevel
    omega
  · have kept (b : Prop) [Decidable b] : (if b then i.withAllowance f else f).outage = i.fast.outage := by split <;> exact u.outage
    exact kept _

theorem PlanInputs.allows_planHeat (whole : i.image.damaged = false) (cold : i.res < i.settings.item 20) : i.Allows (i.planHeat f) := by
  have held {g : Fast} (hg : g.status = f.status ∧ g.cls = f.cls ∧ g.level = f.level ∧ g.outage = f.outage) (h : g.hold ≠ .none) :
      i.Allows (i.committed g) := by
    obtain ⟨hs, hc, hl, ho⟩ := hg
    exact PlanInputs.allows_idle u hs hc hl ho fun _ => h
  simp only [PlanInputs.planHeat]
  split_ifs with interrupted door door ranked held' asks
  · exact held ⟨rfl, rfl, rfl, rfl⟩ (by simp)
  · exact held ⟨rfl, rfl, rfl, rfl⟩ (by simp)
  · exact held ⟨rfl, rfl, rfl, rfl⟩ (HoldCause.holds_of_rank ranked)
  · exact held ⟨rfl, rfl, rfl, rfl⟩ (by simp)
  · exact held ⟨rfl, rfl, rfl, rfl⟩ held'
  · exact held ⟨rfl, rfl, rfl, rfl⟩ (by simp)
  · exact PlanInputs.allows_of_plans (.heats rfl rfl rfl rfl cold (Bool.eq_false_iff.2 door) (Bool.eq_false_iff.2 asks) whole) u.outage

theorem PlanInputs.allows_planDone (hp : f.phase ≠ .heat) : i.Allows (i.planDone f) := by
  unfold PlanInputs.planDone
  split
  · next judged => exact PlanInputs.allows_doorJudged u hp judged
  · exact PlanInputs.allows_idle u rfl rfl rfl rfl fun heat => absurd heat hp

theorem PlanInputs.allows_planCool : i.Allows (i.planCool f) := by
  have tumbled (g : Fast) (hg : i.Unplanned g) (hp : g.phase = .crease ∨ g.phase = .done) :
      i.Allows (match i.doorJudged g with
        | some o => o
        | none => i.committed (if g.phase = .crease then g.resume .creaseOn 5 else g)) := by
    have cold : g.phase ≠ .heat := by rcases hp with h | h <;> simp [h]
    split
    · next judged => exact PlanInputs.allows_doorJudged hg cold judged
    · split
      · next crease => exact PlanInputs.allows_of_plans (.tumbles rfl rfl rfl crease) hg.outage
      · exact PlanInputs.allows_idle hg rfl rfl rfl rfl fun heat => absurd heat cold
  have bare (b : Bool) (x y : Fast) (hx : i.Unplanned x) (hy : i.Unplanned y) : i.Unplanned (if b then x else y) := by
    split
    exacts [hx, hy]
  refine tumbled _ (bare _ _ _ ⟨u.status, u.cls, u.level, u.outage⟩ ⟨u.status, u.cls, u.level, u.outage⟩) ?_
  split
  exacts [.inl rfl, .inr rfl]

theorem PlanInputs.allows_planCrease (hp : f.phase = .crease) : i.Allows (i.planCrease f) := by
  have cold : f.phase ≠ .heat := by simp [hp]
  have idle {g : Fast} (hg : g.status = f.status ∧ g.cls = f.cls ∧ g.level = f.level ∧ g.outage = f.outage) (h : g.phase ≠ .heat) :
      i.Allows (i.committed g) := by
    obtain ⟨hs, hc, hl, ho⟩ := hg
    exact PlanInputs.allows_idle u hs hc hl ho fun heat => absurd heat h
  have done (g : Fast) (hg : i.Unplanned g) : i.Allows (i.planDone g.toDone) :=
    PlanInputs.allows_planDone (f := g.toDone) ⟨hg.status, hg.cls, hg.level, hg.outage⟩ (by simp [Fast.toDone])
  unfold PlanInputs.planCrease
  split
  · exact done f u
  · rename_i cp _
    have cut : i.Unplanned { f with progress := some (cutTumble i.plan.interval cp) } := ⟨u.status, u.cls, u.level, u.outage⟩
    dsimp only
    split
    · exact done _ cut
    · split
      · next judged => exact PlanInputs.allows_doorJudged cut cold judged
      · split
        · exact idle ⟨rfl, rfl, rfl, rfl⟩ (by simp [Fast.toDone])
        · split_ifs
          · exact idle ⟨rfl, rfl, rfl, rfl⟩ (by simp [Fast.toDone])
          · exact PlanInputs.allows_of_plans (.tumbles rfl rfl rfl hp) u.outage
          · exact idle ⟨rfl, rfl, rfl, rfl⟩ cold

end

/-- The threshold of a record is no higher than the hazard temperature (R166). -/
theorem PlanInputs.threshold_le (i : PlanInputs) (f : Fast) : i.threshold f ≤ i.settings.item 20 := by
  unfold PlanInputs.threshold
  split <;> omega

/-- Whichever rule of R164 decides, what it plans is allowed. -/
theorem PlanInputs.allows_outcome (i : PlanInputs) : i.Allows i.outcome := by
  simp only [PlanInputs.outcome]
  split_ifs with damaged held resumed hot
  · exact PlanInputs.allows_planDamaged ⟨rfl, rfl, rfl, rfl⟩
  · exact PlanInputs.allows_of_plans (.idle rfl rfl rfl fun _ => by simp [held]) rfl
  · exact PlanInputs.allows_planDamaged ⟨rfl, rfl, rfl, rfl⟩
  · exact PlanInputs.allows_planHazard ⟨rfl, rfl, rfl, rfl⟩
  · have whole : i.image.damaged = false := Bool.eq_false_iff.2 damaged
    have cold (h : i.fast.phase = .heat ∨ i.fast.phase = .cool) : i.res < i.settings.item 20 :=
      Nat.lt_of_lt_of_le (Nat.lt_of_not_le fun le => hot ⟨h, le⟩) (i.threshold_le _)
    split
    · next heat => exact PlanInputs.allows_planHeat ⟨rfl, rfl, rfl, rfl⟩ whole (cold (.inl heat))
    · next cool _ => exact PlanInputs.allows_planHeat ⟨rfl, rfl, rfl, rfl⟩ whole (cold (.inr cool))
    · exact PlanInputs.allows_planCool ⟨rfl, rfl, rfl, rfl⟩
    · next crease => exact PlanInputs.allows_planCrease ⟨rfl, rfl, rfl, rfl⟩ crease
    · next done => exact PlanInputs.allows_planDone ⟨rfl, rfl, rfl, rfl⟩ (by simp [done])
    · next staged => exact PlanInputs.allows_of_plans (.idle rfl rfl rfl fun (heat : i.fast.phase = .heat) => by simp [heat] at staged) rfl

/-- Settles O55: a damaged image and a hot load are decided by the first rules of R164; every other outcome is allowed. -/
theorem plannerNeverHeatsAHotLoad : Obligations.PlannerNeverHeatsAHotLoad := by
  unfold Obligations.PlannerNeverHeatsAHotLoad
  intro i
  refine ⟨fun damaged => ?_, fun sound free warm hot => ?_, fun f a b h => ?_⟩
  · have first : i.outcome = i.planDamaged { i.fast with status := .none, cls := none, level := none } := by
      simp [PlanInputs.outcome, damaged]
    exact ⟨_, i.plan.interval, i.plan.length, first, rfl, rfl, rfl, rfl, rfl, rfl⟩
  · have second : i.outcome = i.planHazard { i.fast with status := .none, cls := none, level := none, hold := heldBefore i.fast } := by
      have whole := PlanInputs.image_sound sound
      have above : i.threshold { i.fast with status := .none, cls := none, level := none, hold := heldBefore i.fast } ≤ i.res := hot
      unfold PlanInputs.outcome
      dsimp only
      rw [if_neg (by simp [whole]), if_neg free, if_neg (by simp [sound]), if_pos ⟨warm, above⟩]
      exact congrArg i.planHazard rfl
    exact ⟨_, _, _, second, rfl, rfl, rfl, rfl, rfl, rfl, Nat.le_max_right _ _⟩
  · rcases i.allows_outcome with retired | ⟨g, plans, outage, committed⟩
    · exact absurd (h.symm.trans retired) PlanOutcome.noConfusion
    obtain ⟨rfl, -, -⟩ := PlanOutcome.commit.inj (h.symm.trans committed)
    have count : min 255 (g.outage + 1) = min 255 (i.fast.outage + 1) := by rw [outage]
    refine ⟨count, ?_⟩
    dsimp only
    cases plans with
    | idle status cls level waits => exact ⟨fun heat free => absurd free (waits heat), by simp [status], fun _ => ⟨cls, level⟩, by simp [status]⟩
    | cools status cls level least most phase =>
      exact ⟨by simp [phase], by simp [status], by simp [status], fun _ => ⟨_, level, .inl ⟨cls, least, most, phase⟩⟩⟩
    | heats status cls level phase cold shut unasked whole =>
      exact ⟨fun _ _ => ⟨cold, shut, unasked, whole, status, cls, level⟩, by simp [status], by simp [status],
        fun _ => ⟨9, level, .inr (.inl ⟨cls, rfl, phase⟩)⟩⟩
    | tumbles status cls level phase =>
      exact ⟨by simp [phase], by simp [status], by simp [status], fun _ => ⟨5, level, .inr (.inr ⟨cls, rfl, phase⟩)⟩⟩

end Sys2Proof.Machine
end
section
/-! SUPPORT. Ends of operations that make one access, and requests that translation refuses, repairs or enqueues. -/

namespace Sys2Proof.Machine

/-! ### An operation of one access -/

/-- An operation without a record that makes one access, by which it becomes no move, ends as `done` says. -/
theorem Work.endWhere_one {w v : Work} {found : Findings} {f : StoreOp → Bool} {done : Running → Work → Work} {op : StoreOp} {a : Access}
    {r : Running} (h : w.ctl.current = some (Running.of op [a])) (hf : f op = true) (hp : op.recordPocket = none)
    (hv : Work.plainAccess { w.meet found with ctl := { w.ctl with current := some (Running.of op []) } } (Running.of op []) a = v)
    (hr : v.ctl.current = some r) (hm : r.move = none) (ht : r.todo = []) : w.endWhere found f done = done r v := by
  refine Work.endWhere_done h hf ?_ hr hm
  have met : (w.meet found).ctl.current = some (Running.of op [a]) := h
  rw [show accessLimit = 127 + 1 from rfl, Work.runPlain_step 127 met rfl rfl, Work.access_plain met rfl hp]
  exact (congrArg (Work.runPlain 127) hv).trans (Work.runPlain_done 127 hr ht)

/-- The command that ends such an operation. -/
theorem powered_endWhere_one {s : State} {v : Work} {found : Findings} {f : StoreOp → Bool} {done : Running → Work → Work} {op : StoreOp}
    {a : Access} {r : Running} (hp : s.powered = true) (h : s.serving op [a]) (hf : f op = true) (hn : op.recordPocket = none)
    (hv : Work.plainAccess { (Work.begin s).meet found with ctl := { s.ctl with current := some (Running.of op []) } } (Running.of op []) a = v)
    (hr : v.ctl.current = some r) (hm : r.move = none) (ht : r.todo = []) :
    powered s (fun w => w.endWhere found f done) = .next (done r v).finish := by
  rw [powered_on hp, Work.endWhere_one (w := Work.begin s) h hf hn hv hr hm ht]

/-! ### The planner's read of a frame (R157) -/

theorem Work.readWholeFrame_clean {w : Work} {f : Nat} (h : w.frameClean f) (src : LatchSource) (b : Bool) : w.readWholeFrame f src b = w := by
  unfold Work.readWholeFrame
  have clean : ∀ l : List Nat, (∀ k ∈ l, w.store.flaw (frameWord w.geometry f k) = none) →
      l.foldl (fun v k => v.readWord (frameWord v.geometry f k) src b) w = w := by
    intro l
    induction l with
    | nil => exact fun _ => rfl
    | cons k l ih =>
      intro hl
      obtain ⟨hk, hl⟩ := List.forall_mem_cons.1 hl
      rw [List.foldl_cons, Work.readWord_clean hk]
      exact ih hl
  exact clean _ fun k hk => h k (List.mem_range.1 hk)

theorem State.badWords_clean {s : State} {f : Nat} (h : s.frameClean f) : s.badWords f = [] := by
  unfold State.badWords
  rw [List.filter_eq_nil_iff]
  intro k hk
  simp [State.readable_clean (h k (List.mem_range.1 hk))]

/-- While the first polls go on, PLAN does nothing at the end of an operation. -/
theorem Work.planOn_polling {w : Work} (h : w.plan.step = .firstPolls) : w.planOn = w := by
  simp [Work.planOn, Work.planRecords, Work.commitNext, h]

theorem Work.endOp_polling {w : Work} (ha : w.part = .plan) (h : w.plan.step = .firstPolls) (r : Running) :
    w.endOp r = { w with ctl := { w.ctl with current := none } } := by
  unfold Work.endOp
  simp only [ha]
  exact Work.planOn_polling h

/-- Settles O30. -/
theorem plannerReadsHandOverTheFrame : Obligations.PlannerReadsHandOverTheFrame := by
  unfold Obligations.PlannerReadsHandOverTheFrame
  intro p f s hp ha hstep hs clean
  have e : exec (.plannerFrameReadEnd noFailures) s = execPlannerFrameReadEnd noFailures s := rfl
  have read : Work.plainAccess { (Work.begin s).meet noFailures with ctl := { s.ctl with current := some (Running.of (.plannerRead p f) []) } }
      (Running.of (.plannerRead p f) []) .readFrame = Work.begin { s with
        ctl := { s.ctl with current := some (Running.of (.plannerRead p f) []) }
        plan := { s.plan with images := upd s.plan.images p (some { frame := f, data := s.store.frame f, bad := [] }) } } := by
    simp only [Work.plainAccess, Running.of]
    rw [Work.readWholeFrame_clean (by exact clean), State.badWords_clean (by exact clean)]
    rfl
  rw [e, execPlannerFrameReadEnd, powered_endWhere_one hp hs rfl rfl read rfl rfl rfl]
  refine congrArg Host.Outcome.next ?_
  rw [Work.endOp_polling (by exact ha) (by exact hstep)]
  exact Work.finish_of_quiet _ rfl

/-! ### Requests that need the frame (R24, R28, R29, R67) -/

/-- In ACTIVE an operation enqueued owes nothing. -/
theorem Work.enqueue_endOp_finish {s : State} (ha : s.part = .active) (x : Option Running) (op : StoreOp) (r : Running) :
    (((Work.begin { s with ctl := { s.ctl with current := x } }).enqueue op).endOp r).finish = s.storeFreed.queues op := by
  rw [Work.endOp_finish_of_quiet (by exact ha) rfl]
  rfl

theorem Work.respond_endOp_finish {s : State} (ha : s.part = .active) (x : Option Running) (b : Result) (bytes : List Byte) (r : Running) :
    (((Work.begin { s with ctl := { s.ctl with current := x } }).respond b bytes).endOp r).finish = s.storeFreed.replied b bytes := by
  rw [Work.endOp_finish_of_quiet (by exact ha) rfl]
  rfl

/-- OPEN of a pocket that is not map-faulted (R24). -/
theorem Work.translated_open {w : Work} {p : Pocket} (ha : w.part = .active) (hm : w.ctl.mapFault.has p = false) (q : Nat) (x : OpenArgs) (e : MapEntry) :
    w.translated (.openRecord q x) p e = if e.valid then w.respond .exists [] else w.takeOpen p e x := by
  unfold Work.translated
  rw [if_neg (not_not_intro ha), if_neg (by simp [hm])]

/-- A request on a record that is not live (R23). -/
theorem Work.translated_unfound {w : Work} {p : Pocket} {req : HostReq} {e : MapEntry} (ha : w.part = .active)
    (hm : w.ctl.mapFault.has p = false) (ho : ∀ q a, req ≠ .openRecord q a) (hn : e.valid = false ∨ w.ctx p = none) :
    w.translated req p e = w.respond .noRecord [] := by
  have unfound : (if e.valid = true then w.ctx p else none) = none := by rcases hn with h | h <;> simp [h]
  unfold Work.translated
  rw [if_neg (not_not_intro ha), if_neg (by simp [hm])]
  cases req with
  | openRecord q a => exact absurd rfl (ho q a)
  | _ => simp only [unfound]

/-- A request that a PENDING record does not take (R23, check 4). -/
theorem Work.translated_pending {w : Work} {p : Pocket} {c : Context} {req : HostReq} {e : MapEntry} (ha : w.part = .active)
    (hm : w.ctl.mapFault.has p = false) (hv : e.valid = true) (hc : w.ctx p = some c) (ho : ∀ q a, req ≠ .openRecord q a)
    (hp : c.fast.status = .pending) (ht : takenWhilePending req = false) : w.translated req p e = w.respond .state [] := by
  have refused : c.fast.status = .pending ∧ (!takenWhilePending req) = true := ⟨hp, by simp [ht]⟩
  unfold Work.translated
  rw [if_neg (not_not_intro ha), if_neg (by simp [hm])]
  cases req with
  | openRecord q a => exact absurd rfl (ho q a)
  | _ => simp only [hv, if_true, hc, if_pos refused]

theorem nextGeneration_eq (g : Nat) : nextGeneration g = if g < 65535 then g + 1 else 1 := by
  unfold nextGeneration Config.generationMax
  split_ifs <;> omega

theorem clampTo_level (n : Nat) : clampTo 1 3 n = max 1 (min 3 n) := by
  unfold clampTo
  split_ifs <;> omega

theorem clampTo_level_changes (n : Nat) : (clampTo 1 3 n != n) = (n == 0 || decide (3 < n)) := by
  rw [Bool.eq_iff_iff, clampTo_level]
  simp only [bne_iff_ne, Bool.or_eq_true, beq_iff_eq, decide_eq_true_eq]
  omega

/-- A bit that two masks share is one of the three options (R29). -/
theorem Options.clash_ofByte (a b : Byte) : Options.clash (Options.ofByte a) (Options.ofByte b) = decide (a &&& b &&& 7 ≠ 0) := by
  have bits : ∀ x : Byte, (x.getLsbD 0 || x.getLsbD 1 || x.getLsbD 2) = decide (x &&& 7 ≠ 0) := by decide
  rw [← bits (a &&& b)]
  simp [Options.clash, Options.ofByte]

/-- Settles O17. -/
theorem requestsThatNeedTheFrameAreQueued : Obligations.RequestsThatNeedTheFrameAreQueued := by
  unfold Obligations.RequestsThatNeedTheFrameAreQueued
  intro p n a b x c e s
  refine ⟨fun h hp => ?_, fun h hp => ?_, fun h => ?_, fun h hv => ?_⟩
  · obtain ⟨r, hexec⟩ := exec_translationReadEnd_of_reaches h (fun _ _ => HostReq.noConfusion) fun pending => absurd pending hp
    obtain ⟨⟨_, ⟨_, ha, _⟩, _⟩, _⟩ := h
    rw [hexec, Work.onRecord, Work.takeSetHeat, clampTo_level_changes, clampTo_level, Work.enqueue_endOp_finish ha]
  · obtain ⟨r, hexec⟩ := exec_translationReadEnd_of_reaches h (fun _ _ => HostReq.noConfusion) fun pending => absurd pending hp
    obtain ⟨⟨_, ⟨_, ha, _⟩, _⟩, _⟩ := h
    rw [hexec, Work.onRecord, Work.takeSetOptions, Options.clash_ofByte]
    by_cases clash : a &&& b &&& 7 = 0
    · rw [if_neg (fun shares => (of_decide_eq_true shares : a &&& b &&& 7 ≠ 0) clash), if_pos clash, Work.enqueue_endOp_finish ha]
    · rw [if_pos (decide_eq_true clash), if_neg clash, Work.respond_endOp_finish ha]
  · obtain ⟨r, hexec⟩ := exec_translationReadEnd_of_reaches h (fun _ _ => HostReq.noConfusion) fun _ => rfl
    obtain ⟨⟨_, ⟨_, ha, _⟩, _⟩, _⟩ := h
    rw [hexec, Work.onRecord, Work.takeLookup, Work.enqueue_endOp_finish ha]
  · rw [exec_translationReadEnd h]
    obtain ⟨_, ha, _, _, _, _, hm⟩ := h
    rw [Work.translated_open (by exact ha) (by exact hm), hv]
    rw [if_neg (by simp), Work.takeOpen, Work.enqueue_endOp_finish ha, nextGeneration_eq, openHeat, clampTo_zero]
    rfl

/-! ### What translation refuses and repairs (R23, R33, R38) -/

/-- An uncorrectable word offers nothing to a latch that holds such an error (R49). -/
theorem Work.readWord_latched {w : Work} {n : Nat} (hf : w.store.flaw n = some .uncorrectable) (hl : w.ctl.latch.state = .uncorrectable)
    (src : LatchSource) (b : Bool) : w.readWord n src b = w := by
  simp [Work.readWord, hf, Work.offer, hl]

theorem State.unreadable_of_flaw {s : State} {n : Nat} (h : s.store.flaw n = some .uncorrectable) : s.readable n = false := by
  simp [State.readable, Store.readable, h]

theorem State.readable_of_correctable {s : State} {n : Nat} (h : s.store.flaw n = some .correctable) : s.readable n = true := by
  simp [State.readable, Store.readable, h]

/-- A correctable word that is read is written back, counted and latched (R33, R49, R50). -/
theorem Work.readWord_correctable {w : Work} {n : Nat} (hf : w.store.flaw n = some .correctable) (src : LatchSource) :
    (w.readWord n src true).store = w.store.setFlaw n none ∧
    (w.readWord n src true).ctl.correctable = min 65535 (w.ctl.correctable + 1) ∧
    (w.readWord n src true).ctl.latch.state ≠ .empty ∧ (w.readWord n src true).quiet = w.quiet ∧
    (w.readWord n src true).part = w.part ∧ (w.readWord n src true).ctl.current = w.ctl.current := by
  have read : w.readWord n src true = (w.countCorrectable.offer n .correctable src).wrote n := by simp [Work.readWord, hf]
  rw [read]
  have latch : w.countCorrectable.ctl.latch = w.ctl.latch := rfl
  unfold Work.offer
  dsimp only
  cases hl : w.ctl.latch.state with
  | empty =>
    simp only [latch, hl]
    exact ⟨rfl, rfl, LatchState.noConfusion, rfl, rfl, rfl⟩
  | correctable =>
    simp only [latch, hl]
    exact ⟨rfl, rfl, fun (h : w.ctl.latch.state = _) => by simp [hl] at h, rfl, rfl, rfl⟩
  | uncorrectable =>
    simp only [latch, hl]
    exact ⟨rfl, rfl, fun (h : w.ctl.latch.state = _) => by simp [hl] at h, rfl, rfl, rfl⟩

/-- EXTEND, whatever it finds, touches neither the store nor the store's control and owes nothing (R23, R26). -/
theorem Work.translated_extend_ctl (w : Work) (q n : Nat) (p : Pocket) (e : MapEntry) :
    (w.translated (.extend q n) p e).ctl = w.ctl ∧ (w.translated (.extend q n) p e).store = w.store ∧
    (w.translated (.extend q n) p e).quiet = w.quiet ∧ (w.translated (.extend q n) p e).part = w.part := by
  have paid (v : Work) (f : Fast → Fast) (b : Result) : ((v.onFast p f).respond b []).ctl = v.ctl ∧ ((v.onFast p f).respond b []).store = v.store ∧
      ((v.onFast p f).respond b []).quiet = v.quiet ∧ ((v.onFast p f).respond b []).part = v.part := by
    unfold Work.onFast Work.onCtx
    split <;> exact ⟨rfl, rfl, rfl, rfl⟩
  unfold Work.translated
  split
  · exact ⟨rfl, rfl, rfl, rfl⟩
  · split
    · exact ⟨rfl, rfl, rfl, rfl⟩
    · dsimp only
      split
      · exact ⟨rfl, rfl, rfl, rfl⟩
      · split
        · exact ⟨rfl, rfl, rfl, rfl⟩
        · rw [Work.onRecord, Work.takeExtend]
          split
          · exact paid _ _ _
          · exact ⟨rfl, rfl, rfl, rfl⟩

theorem Work.offer_current (w : Work) (n : Nat) (x : Flaw) (src : LatchSource) : (w.offer n x src).ctl.current = w.ctl.current := by
  unfold Work.offer
  dsimp only
  split <;> rfl

theorem Work.readWord_current (w : Work) (n : Nat) (src : LatchSource) (b : Bool) : (w.readWord n src b).ctl.current = w.ctl.current := by
  unfold Work.readWord
  split
  · rfl
  · dsimp only
    split <;> exact Work.offer_current _ _ _ _
  · exact Work.offer_current _ _ _ _

/-- A translation's read of its map word, be it good or not (R38). -/
theorem exec_translationReadEnd_read {s : State} {req : HostReq} {p : Pocket} (hp : s.powered = true)
    (hs : s.serving (.translation req) [.readMap]) (hr : reqPocket req = some p) :
    let v := (Work.begin { s with ctl := { s.ctl with current := some (Running.of (.translation req) []) } }).readWord (mapWord p) .read true
    let r := { Running.of (.translation req) [] with good := s.readable (mapWord p), entry := s.store.map[p] }
    exec (.translationReadEnd noFailures) s = .next (if s.readable (mapWord p) then
      ((Work.translated { v with ctl := { v.ctl with current := some r } } req p r.entry).endOp r).finish
      else ((Work.enqueue { v with ctl := { v.ctl with current := some r } } (.mapRepair req p)).endOp r).finish) := by
  intro v r
  have kept : v.ctl.current = some (Running.of (.translation req) []) := Work.readWord_current _ _ _ _
  have read : Work.plainAccess { (Work.begin s).meet noFailures with ctl := { s.ctl with current := some (Running.of (.translation req) []) } }
      (Running.of (.translation req) []) .readMap = { v with ctl := { v.ctl with current := some r } } := by
    simp only [Work.plainAccess, Running.of, hr]
    show Work.onRun v _ = _
    unfold Work.onRun
    rw [kept]
    rfl
  have e : exec (.translationReadEnd noFailures) s = execTranslationReadEnd noFailures s := rfl
  rw [e, execTranslationReadEnd, powered_endWhere_one hp hs rfl rfl read rfl rfl rfl]
  simp only [r, Running.of, hr]
  split <;> rfl

/-- Settles O19. -/
theorem translationRefusesAndRepairs : Obligations.TranslationRefusesAndRepairs := by
  unfold Obligations.TranslationRefusesAndRepairs
  intro r p e s
  refine ⟨fun h ho hn => ?_, fun h ho hv => ?_, fun c h hp ho hl he hr => ?_, fun hp ha hs hr hf hl => ?_, fun x hp ha hs hw hf => ?_⟩
  · rw [exec_translationReadEnd h]
    obtain ⟨_, ha, _, _, _, _, hm⟩ := h
    rw [Work.translated_unfound (by exact ha) (by exact hm) ho (by exact hn), Work.respond_endOp_finish ha]
  · obtain ⟨q, a, rfl⟩ := ho
    rw [exec_translationReadEnd h]
    obtain ⟨_, ha, _, _, _, _, hm⟩ := h
    rw [Work.translated_open (by exact ha) (by exact hm), if_pos hv, Work.respond_endOp_finish ha]
  · have refused : takenWhilePending r = false := by
      cases r <;> simp_all [takenWhilePending]
    obtain ⟨⟨e, ht, hv⟩, hc⟩ := h
    rw [exec_translationReadEnd ht]
    obtain ⟨_, ha, _, _, _, _, hm⟩ := ht
    rw [Work.translated_pending (by exact ha) (by exact hm) hv (by exact hc) ho hp refused, Work.respond_endOp_finish ha]
  · rw [exec_translationReadEnd_read hp hs hr, if_neg (by simp [State.unreadable_of_flaw hf]), Work.readWord_latched (by exact hf) (by exact hl)]
    exact congrArg Host.Outcome.next (Work.enqueue_endOp_finish (s := s) ha _ _ _)
  · have q : reqPocket (.extend p.val x) = some p := by simp [reqPocket, reqPocketField]
    obtain ⟨store, count, latch, quiet, part, -⟩ := Work.readWord_correctable (w := Work.begin { s with ctl := { s.ctl with
      current := some (Running.of (.translation (.extend p.val x)) []) } }) hf .read
    rw [exec_translationReadEnd_read hp hs q, if_pos (State.readable_of_correctable hf)]
    generalize (Work.begin { s with ctl := { s.ctl with current := some (Running.of (.translation (.extend p.val x)) []) } }).readWord
      (mapWord p) .read true = v at store count latch quiet part
    dsimp only
    generalize ({ Running.of (.translation (.extend p.val x)) [] with good := s.readable (mapWord p), entry := s.store.map[p] } : Running) = r
    obtain ⟨ctl', store', quiet', part'⟩ := Work.translated_extend_ctl { v with ctl := { v.ctl with current := some r } } p.val x p s.store.map[p]
    have active : (Work.translated { v with ctl := { v.ctl with current := some r } } (.extend p.val x) p s.store.map[p]).part = .active :=
      part'.trans (part.trans ha)
    refine ⟨_, congrArg Host.Outcome.next (Work.endOp_finish_of_quiet active (quiet'.trans quiet) _), ?_, ?_, ?_⟩
    · show Store.flaw (Work.translated _ _ _ _).store _ = none
      rw [store', store]
      exact Store.flaw_setFlaw_self hw (by unfold mapWord Config.storeWords; omega) none
    · show (Work.translated _ _ _ _).ctl.correctable = _
      rw [ctl']
      exact count
    · show (Work.translated _ _ _ _).ctl.latch.state ≠ _
      rw [ctl']
      exact latch

end Sys2Proof.Machine
end
section
/-! SUPPORT. Service of the oldest store operation (R40). -/

namespace Sys2Proof.Machine

theorem StoreCtl.freed_of_idle {c : StoreCtl} (h : c.current = none) : { c with current := none } = c := by
  cases c
  cases h
  rfl

/-- A service command that finds nothing to serve. -/
theorem exec_serve_none {s : State} (hp : s.powered = true) (h : s.ctl.current ≠ none ∨ s.ctl.queue = []) :
    exec .storeOperationServe s = .next s := by
  have e : exec .storeOperationServe s = execStoreOperationServe s := rfl
  have rests : (Work.begin s).serveNext = Work.begin s := by
    unfold Work.serveNext
    split
    · rename_i op rest idle queue
      rcases h with h | h
      · exact absurd idle h
      · exact absurd (h.symm.trans queue) (List.cons_ne_nil _ _).symm
    · rfl
  rw [e, execStoreOperationServe, powered_on hp, rests]
  exact congrArg Host.Outcome.next (Work.finish_of_quiet _ rfl)

section
variable {s : State} {op : StoreOp} {rest : List StoreOp} (hp : s.powered = true) (idle : s.ctl.current = none) (queue : s.ctl.queue = op :: rest)
include hp idle queue

/-- The operation at the head of the queue is served from the state without it. -/
theorem exec_serve : exec .storeOperationServe s =
    .next (Work.serve1 (Work.begin { s with ctl := { s.ctl with queue := rest } }) op).finish := by
  have e : exec .storeOperationServe s = execStoreOperationServe s := rfl
  have served : (Work.begin s).serveNext = Work.serve1 (Work.begin { s with ctl := { s.ctl with queue := rest } }) op := by
    unfold Work.serveNext
    simp only [Work.begin_ctl, idle, queue]
    rfl
  rw [e, execStoreOperationServe, powered_on hp, served]

/-- It begins service. -/
theorem exec_serve_begins {v : State} {r : Running} (h : Work.serve1 (Work.begin { s with ctl := { s.ctl with queue := rest } }) op =
    Work.serveOp (Work.begin v) r) : exec .storeOperationServe s = .next { v with ctl := { v.ctl with current := some r } } := by
  rw [exec_serve hp idle queue, h]
  exact congrArg Host.Outcome.next (Work.finish_of_quiet _ rfl)

/-- In ACTIVE it ends the moment it is served. -/
theorem exec_serve_ends {v : State} {x : StoreOp} (hv : v.part = .active) (free : v.ctl.current = none)
    (h : Work.serve1 (Work.begin { s with ctl := { s.ctl with queue := rest } }) op = (Work.begin v).endsAtOnce x) :
    exec .storeOperationServe s = .next v := by
  rw [exec_serve hp idle queue, h, Work.endsAtOnce, Work.endOp_finish_of_quiet (by exact hv) rfl]
  unfold State.storeFreed
  simp only [Work.begin_toState, StoreCtl.freed_of_idle free]

end

/-- A record that is not pinned, and whose word 1 can be read, is pinned (R43). -/
theorem Work.pin_of_loose {w : Work} {p : Pocket} {c : Context} (hc : w.ctx p = some c) (loose : c.pinned = false)
    (clean : w.store.flaw (frameWord w.geometry c.frame 1) = none) :
    w.pin p = (w.setCtx p (some { c with pinned := true })).markPart .store := by
  have readable : ((w.setCtx p (some { c with pinned := true })).markPart .store).readable
      (frameWord ((w.setCtx p (some { c with pinned := true })).markPart .store).geometry c.frame 1) = true := State.readable_clean clean
  unfold Work.pin
  simp only [hc, loose, Work.onCtx_of_ctx hc]
  rw [if_neg (by simp), if_pos readable]

/-- A move that waited finds no free frame (R43). -/
theorem Work.serveMove_full {w : Work} {p : Pocket} {c : Context} {f : Nat} (hc : w.ctx p = some c) (hf : c.frame = f) (empty : w.ctl.free = []) :
    w.serveMove p f false = (w.pin p).endsAtOnce (.move p f false) := by
  simp [Work.serveMove, hc, hf, Work.beginMove, empty]

/-- It takes the frame at the head of the free list (R42). -/
theorem Work.serveMove_free {w : Work} {p : Pocket} {c : Context} {f target : Nat} {more : List Nat} (hc : w.ctx p = some c) (hf : c.frame = f)
    (free : w.ctl.free = target :: more) :
    w.serveMove p f false = { w with ctl := { w.ctl with
      free := more
      current := some { Running.of (.move p f false) [] with
        todo := moveTodo w.geometry []
        move := some { old := f, new := target, statics := w.safeStatics, stamp := none, saved := false } } } } := by
  simp [Work.serveMove, hc, hf, Work.beginMove, free]

/-- Settles O20. -/
theorem oldestOperationIsServed : Obligations.OldestOperationIsServed := by
  unfold Obligations.OldestOperationIsServed
  intro op rest p s hp ha
  refine ⟨exec_serve_none hp, fun idle queue => ?_⟩
  refine ⟨fun todo h => ?_, fun gen args heat clamped h => ⟨fun f more free => ?_, fun empty => ?_⟩, fun unfound h => ?_, fun c hc => ?_⟩
  · refine exec_serve_begins hp idle queue (v := { s with ctl := { s.ctl with queue := rest } }) ?_
    cases op <;> simp only [accessesOf, reduceCtorEq, Option.some.injEq] at h <;> subst h <;> rfl
  · subst h
    refine exec_serve_begins hp idle queue (v := { s with ctl := { s.ctl with queue := rest, free := more } }) ?_
    simp only [Work.serve1, Work.begin_ctl, free]
    rfl
  · subst h
    refine exec_serve_ends hp idle queue (v := State.replied { s with ctl := { s.ctl with queue := rest } } .noFrame []) ha idle
      (x := .openRecord p gen args heat clamped) ?_
    simp only [Work.serve1, Work.begin_ctl, empty]
    rfl
  · have gone : (Work.begin { s with ctl := { s.ctl with queue := rest } }).ctx p = none := unfound
    refine exec_serve_ends hp idle queue (v := State.replied { s with ctl := { s.ctl with queue := rest } } .noRecord []) ha idle (x := op) ?_
    rcases h with ⟨change, clamped, rfl⟩ | ⟨copy, rfl⟩ <;> simp only [Work.serve1, gone] <;> rfl
  · have found : (Work.begin { s with ctl := { s.ctl with queue := rest } }).ctx p = some c := hc
    have begins {r : Running} (h : Work.serve1 (Work.begin { s with ctl := { s.ctl with queue := rest } }) op =
        Work.serveOp (Work.begin { s with ctl := { s.ctl with queue := rest } }) r) :
        exec .storeOperationServe s = .next (s.begins rest r) := exec_serve_begins hp idle queue h
    refine ⟨fun why h hw => ?_, fun h => ?_, fun copy h => ?_, fun change clamped h => ?_, fun h loose dirty => ?_, fun h rests => ?_,
      fun f h hf empty loose clean => ?_, fun f target more h hf free => ?_⟩
    · subst h
      refine begins ?_
      simp only [Work.serve1, found, if_neg hw]
      rfl
    · subst h
      refine begins ?_
      simp only [Work.serve1, found]
      rfl
    · subst h
      refine begins ?_
      simp only [Work.serve1, found]
      rfl
    · subst h
      split
      · next pinned =>
        refine exec_serve_ends hp idle queue (v := State.replied { s with ctl := { s.ctl with queue := rest } } .storeFault []) ha idle
          (x := .staticWrite p change clamped) ?_
        simp only [Work.serve1, found, if_pos pinned]
        rfl
      · next loose =>
        refine begins ?_
        simp only [Work.serve1, found, if_neg loose]
    · subst h
      refine exec_serve_begins hp idle queue
        (v := State.withCtx { s with ctl := { s.ctl with queue := rest } } p (some { c with checkpoint := .writing })) ?_
      rw [Work.serve1, Work.serveCheckpoint]
      simp only [found]
      rw [if_neg (by simp [loose]; exact fun zero => absurd zero dirty), Work.onCtx_of_ctx found]
      rfl
    · subst h
      refine exec_serve_ends hp idle queue (x := .checkpoint p) ?_ ?_ ?_
      · exact ha
      · exact idle
      · rw [Work.serve1, Work.serveCheckpoint]
        simp only [found]
        rw [if_pos (by rcases rests with h | ⟨h, h'⟩ <;> simp [*]), Work.checkpointEnded, Work.onCtx_of_ctx found]
        rfl
    · subst h
      refine exec_serve_ends hp idle queue (x := .move p f false) ?_ ?_ ?_
      · exact ha
      · exact idle
      · rw [Work.serve1, Work.serveMove_full found hf empty, Work.pin_of_loose found loose (by rw [hf]; exact clean)]
        rfl
    · subst h
      have moves := congrArg Work.finish (Work.serveMove_free found hf free)
      exact ⟨_, (exec_serve hp idle queue).trans (congrArg Host.Outcome.next (moves.trans (Work.finish_of_quiet _ (by rfl)))),
        rfl, rfl, rfl, rfl, rfl⟩

end Sys2Proof.Machine
end
section
/-! SUPPORT. Whether a grant is to be evaluated, and what the link queue holds, under convergence and at the end of a command
(R93, R94, R96, R119). -/

namespace Sys2Proof.Machine

/-! ### The call for a grant -/

section
variable (w : Work) (p : Pocket)

@[simp] theorem Work.clearLatchSeen_grant (es : List Entry) : ∀ w : Work, (w.clearLatchSeen es).grant = w.grant := by
  induction es with
  | nil => exact fun _ => rfl
  | cons e es ih =>
    intro w
    unfold Work.clearLatchSeen
    split <;> exact ih _

@[simp] theorem Work.leave_grant (left stay : List Entry) : (w.leave left stay).grant = w.grant := by
  unfold Work.leave
  split
  · rfl
  · exact Work.clearLatchSeen_grant _ _

@[simp] theorem Work.oweProbe_grant (e : Option Entry) : (w.oweProbe e).grant = w.grant := by
  unfold Work.oweProbe
  split
  · split <;> rfl
  · rfl

@[simp] theorem Work.makeRoom_grant : w.makeRoom.grant = w.grant := by
  unfold Work.makeRoom Work.dropNewest
  split
  · rfl
  · split <;> simp

@[simp] theorem Work.putSafe_grant : (w.putSafe p).grant = w.grant := by
  unfold Work.putSafe Work.dropEntries
  dsimp only
  split
  · simp
  · split <;> simp

/-- What a fold leaves of the call for a grant. -/
theorem foldl_grant {α : Type} (f : Work → α → Work) (h : ∀ w a, (f w a).grant = w.grant) (l : List α) :
    ∀ w : Work, (l.foldl f w).grant = w.grant := by
  induction l with
  | nil => exact fun _ => rfl
  | cons a l ih => exact fun w => (ih _).trans (h w a)

@[simp] theorem Work.admitSafes_grant : w.admitSafes.grant = w.grant := by
  unfold Work.admitSafes
  split
  · exact foldl_grant _ (fun v q => by split <;> simp) _ w
  · rfl

@[simp] theorem Work.join_grant (k : CommandKind) : (w.join p k).grant = w.grant := by
  unfold Work.join
  split <;> rfl

@[simp] theorem Work.releaseReservation_grant : (w.releaseReservation p).grant = w.grant := by
  unfold Work.releaseReservation
  split <;> rfl

@[simp] theorem Work.demandRead_grant (why : ReadPurpose) : (w.demandRead p why).grant = w.grant := by
  unfold Work.demandRead
  split <;> rfl

@[simp] theorem Work.convergeMotor_grant : (w.convergeMotor p).grant = w.grant := by
  unfold Work.convergeMotor Work.postStop Work.postRun
  split
  · split <;> simp
  · split
    · split <;> simp
    · rfl

@[simp] theorem Work.convergeLevel_grant : (w.convergeLevel p).grant = w.grant := by
  unfold Work.convergeLevel Work.postHeatOn
  split
  · split <;> simp
  · split <;> simp

@[simp] theorem Work.convergeHeat_grant : (w.convergeHeat p).grant = w.grant := by
  unfold Work.convergeHeat Work.postHeatOff
  split
  · split <;> simp
  · split
    · rw [Work.convergeLevel_grant]
      split <;> rfl
    · rfl

@[simp] theorem Work.convergeOne_grant : (w.convergeOne p).grant = w.grant := by
  unfold Work.convergeOne
  split <;> simp

@[simp] theorem Work.postProbe_grant : (w.postProbe p).grant = w.grant := by
  unfold Work.postProbe
  split <;> simp

@[simp] theorem Work.admitProbes_grant : w.admitProbes.grant = w.grant := by
  unfold Work.admitProbes
  split
  · exact foldl_grant _ (fun v q => by split <;> simp) _ w
  · rfl

@[simp] theorem Work.admitHeld_grant : w.admitHeld.grant = w.grant := by
  unfold Work.admitHeld
  split
  · rw [Work.admitProbes_grant]
    exact foldl_grant _ (fun v q => by split <;> simp) _ _
  · rfl

@[simp] theorem Work.converge_grant : (w.converge p).grant = w.grant := by simp [Work.converge]

theorem Work.servePhase_grant (x : SupplyPhase) : ∀ (n : Nat) (w : Work), (Work.servePhase x n w).grant = w.grant
  | 0, _ => rfl
  | n + 1, w => by
    unfold Work.servePhase
    split
    · split
      · rw [Work.servePhase_grant x n]
        unfold Work.reserve
        rw [Work.converge_grant]
        cases x <;> rfl
      · rfl
    · rfl

@[simp] theorem Work.serveLists_grant : w.serveLists.grant = w.grant := by
  unfold Work.serveLists
  split
  · rfl
  · simp only [Work.servePhase_grant]

end

/-! ### Ends without a grant -/

/-- No grant is to be evaluated, and the state is `x` but for the link, the wait lists and the queue. -/
def Work.ungranted (w : Work) (x : State) : Prop := w.grant = false ∧ w.offLink = x

theorem Work.settleOnce_ungranted {w : Work} {x : State} (h : w.ungranted x) : w.settleOnce.ungranted x := by
  have cond (b : Bool) (v v' : Work) (hv : v.ungranted x) (hv' : v'.grant = v.grant ∧ v'.offLink = v.offLink) :
      (if b then v' else v).ungranted x := by
    split
    · exact ⟨hv'.1.trans hv.1, hv'.2.trans hv.2⟩
    · exact hv
  have debt : w.admitHeld.debtFree.ungranted x := ⟨rfl, (Work.admitHeld_offLink w).trans h.2⟩
  unfold Work.settleOnce
  dsimp only
  rw [if_neg (by simp [h.1])]
  refine cond _ _ _ (cond _ _ _ ?_ ⟨Work.admitProbes_grant _, Work.admitProbes_offLink _⟩) ⟨Work.serveLists_grant _, Work.serveLists_offLink _⟩
  exact ⟨(foldl_grant _ (fun v q => by split <;> simp) _ _).trans debt.1,
    (foldl_view State.offLink _ (fun v q => by split <;> simp) _ _).trans debt.2⟩

theorem Work.settle_ungranted {x : State} : ∀ (n : Nat) {w : Work}, w.ungranted x → (Work.settle n w).ungranted x
  | 0, _, h => h
  | n + 1, w, h => by
    unfold Work.settle
    split
    · exact h
    · exact Work.settle_ungranted n (Work.settleOnce_ungranted h)

/-- Without a grant to be evaluated the end of a command changes nothing but the link, the wait lists and the queue. -/
theorem Work.finish_of_ungranted {w : Work} (h : w.grant = false) : w.finish.offLink = w.offLink :=
  (Work.settle_ungranted (x := w.offLink) 8 ⟨h, rfl⟩).2

end Sys2Proof.Machine
end
section
/-! SUPPORT. What a run of convergence posts and purges while no SAFE is owed (R93, R94, R96). -/

namespace Sys2Proof.Machine

/-- No SAFE is owed to any pocket (R94). -/
def State.noneOwed (s : State) : Prop := ∀ q, (s.pocketLink q).safeOwed = false

/-- An entry without the level that a HEAT_ON carries. -/
def Entry.bare (e : Entry) : Entry := { e with level := none }

theorem Entry.eq_of_bare {a b : Entry} (h : a.bare = b.bare) : a.pocket = b.pocket ∧ a.kind = b.kind ∧ a.state = b.state :=
  ⟨(congrArg Entry.pocket h :), (congrArg Entry.kind h :), (congrArg Entry.state h :)⟩

/-- What convergence for `q` may have made of `s`, with the motor desired as `m` says and the heat as `h` says: the links of the
other pockets stand; of the queue only UNSENT RUN or HEAT_ON entries of `q` that are no longer desired have left, and only
commands of `q` that serve its desired state, or a probe, have joined. -/
structure State.Posts (m h : Bool) (q : Pocket) (s t : State) : Prop where
  others : ∀ p, p ≠ q → t.pocketLink p = s.pocketLink p
  latch : (t.pocketLink q).latchSeen = (s.pocketLink q).latchSeen
  owed : (t.pocketLink q).safeOwed = (s.pocketLink q).safeOwed
  stop : (s.pocketLink q).stopPosted = true → (t.pocketLink q).stopPosted = true
  off : (s.pocketLink q).heatOffPosted = true → (t.pocketLink q).heatOffPosted = true
  keeps : ∀ y ∈ s.link.queue, (∃ x ∈ t.link.queue, x.bare = y.bare) ∨
    (y.pocket = some q ∧ y.state = .unsent ∧ ((y.kind = .run ∧ m = false) ∨ (y.kind = .heatOn ∧ h = false)))
  gains : ∀ x ∈ t.link.queue, (∃ y ∈ s.link.queue, y.bare = x.bare) ∨
    (x.pocket = some q ∧ x.state = .unsent ∧ ((x.kind = .stop ∧ m = false) ∨ (x.kind = .run ∧ m = true) ∨
      (x.kind = .heatOff ∧ h = false) ∨ (x.kind = .heatOn ∧ h = true) ∨ x.kind = .poll))

section
variable {m h : Bool} {q : Pocket}

theorem State.Posts.refl (s : State) : State.Posts m h q s s :=
  ⟨fun _ _ => rfl, rfl, rfl, id, id, fun y hy => .inl ⟨y, hy, rfl⟩, fun x hx => .inl ⟨x, hx, rfl⟩⟩

theorem State.Posts.trans {s t u : State} (a : State.Posts m h q s t) (b : State.Posts m h q t u) : State.Posts m h q s u where
  others p hp := (b.others p hp).trans (a.others p hp)
  latch := b.latch.trans a.latch
  owed := b.owed.trans a.owed
  stop hs := b.stop (a.stop hs)
  off hs := b.off (a.off hs)
  keeps y hy := by
    rcases a.keeps y hy with ⟨x, hx, e⟩ | out
    · obtain ⟨pocket, kind, state⟩ := Entry.eq_of_bare e
      rcases b.keeps x hx with ⟨z, hz, e'⟩ | out
      · exact .inl ⟨z, hz, e'.trans e⟩
      · rw [pocket, kind, state] at out
        exact .inr out
    · exact .inr out
  gains x hx := by
    rcases b.gains x hx with ⟨y, hy, e⟩ | out
    · obtain ⟨pocket, kind, state⟩ := Entry.eq_of_bare e
      rcases a.gains y hy with ⟨z, hz, e'⟩ | out
      · exact .inl ⟨z, hz, e'.trans e⟩
      · rw [pocket, kind, state] at out
        exact .inr out
    · exact .inr out

/-- The links of two states are the same. -/
theorem State.Posts.of_link {s t : State} (e : t.link.pockets = s.link.pockets) (e' : t.link.queue = s.link.queue) : State.Posts m h q s t := by
  have same (p : Pocket) : t.pocketLink p = s.pocketLink p := congrArg (fun v : Vector PocketLink 32 => v[p]) e
  refine ⟨fun p _ => same p, by rw [same], by rw [same], by rw [same]; exact id, by rw [same]; exact id, ?_, ?_⟩
  · rw [e']
    exact fun y hy => .inl ⟨y, hy, rfl⟩
  · rw [e']
    exact fun y hy => .inl ⟨y, hy, rfl⟩

theorem State.noneOwed_of_posts {s t : State} (a : State.Posts m h q s t) (hs : s.noneOwed) : t.noneOwed := by
  intro p
  by_cases e : p = q
  · subst e
    exact a.owed.trans (hs p)
  · rw [a.others p e]
    exact hs p

/-- A command joins that serves the desired state. -/
theorem Work.join_posts (w : Work) {k : CommandKind}
    (hk : (k = .stop ∧ m = false) ∨ (k = .run ∧ m = true) ∨ (k = .heatOff ∧ h = false) ∨ (k = .heatOn ∧ h = true) ∨ k = .poll) :
    State.Posts m h q w.toState (w.join q k).toState := by
  unfold Work.join
  split
  · exact .refl _
  · refine ⟨fun _ _ => rfl, rfl, rfl, id, id, fun y hy => .inl ⟨y, List.mem_append_left _ hy, rfl⟩, fun x hx => ?_⟩
    rcases List.mem_append.1 hx with old | new
    · exact .inl ⟨x, old, rfl⟩
    · obtain rfl := List.mem_singleton.1 new
      exact .inr ⟨rfl, rfl, hk⟩

theorem Work.clearLatchSeen_of_other : ∀ (es : List Entry) {w : Work}, (∀ e ∈ es, e.kind ≠ .clearDoor) → w.clearLatchSeen es = w
  | [], _, _ => rfl
  | e :: es, w, hes => by
    obtain ⟨he, hes⟩ := List.forall_mem_cons.1 hes
    unfold Work.clearLatchSeen
    split
    · rename_i kind
      exact absurd kind he
    · exact Work.clearLatchSeen_of_other es hes

/-- What leaves the queue, no SAFE being owed and no CLEAR_DOOR among it. -/
theorem Work.removeEntries_link {w : Work} {g : Entry → Bool} (free : w.noneOwed) (hg : ∀ e, g e = true → e.kind ≠ .clearDoor) :
    (w.removeEntries g).link.pockets = w.link.pockets ∧
    (w.removeEntries g).link.queue = w.link.queue.filter fun e => !(g e) := by
  have left : ∀ e ∈ w.link.queue.filter g, e.kind ≠ .clearDoor := fun e he => hg e (List.mem_filter.1 he).2
  have pockets : (w.dropEntries g).link.pockets = w.link.pockets := by
    unfold Work.dropEntries Work.leave
    split
    · rfl
    · rw [Work.clearLatchSeen_of_other _ left]
      rfl
  unfold Work.removeEntries
  split
  · rw [Work.admitSafes_none _ fun p => (congrArg (fun v : Vector PocketLink 32 => (v[p]).safeOwed) pockets).trans (free p)]
    exact ⟨pockets, Work.dropEntries_queue w g⟩
  · next none =>
    refine ⟨rfl, (List.filter_eq_self.2 fun e he => ?_).symm⟩
    have out : g e = false := Bool.eq_false_iff.2 fun h => none (List.any_eq_true.2 ⟨e, he, h⟩)
    simp [out]

/-- What convergence purges: UNSENT entries of `q` whose channel is no longer desired on. -/
theorem Work.removeEntries_posts {w : Work} {k : CommandKind} (free : w.noneOwed) (hk : (k = .run ∧ m = false) ∨ (k = .heatOn ∧ h = false)) :
    State.Posts m h q w.toState (w.removeEntries fun e => e.isFor q && e.kind == k && e.state == .unsent).toState := by
  obtain ⟨pockets, queue⟩ := Work.removeEntries_link (w := w) (g := fun e => e.isFor q && e.kind == k && e.state == .unsent) free
    fun e he => by rcases hk with ⟨rfl, -⟩ | ⟨rfl, -⟩ <;> simp_all
  have same (p : Pocket) : (w.removeEntries fun e => e.isFor q && e.kind == k && e.state == .unsent).pocketLink p = w.pocketLink p :=
    congrArg (fun v : Vector PocketLink 32 => v[p]) pockets
  refine ⟨fun p _ => same p, by rw [same], by rw [same], by rw [same]; exact id, by rw [same]; exact id, fun y hy => ?_, fun x hx => ?_⟩
  · rw [queue]
    by_cases out : (y.isFor q && y.kind == k && y.state == .unsent) = true
    · simp only [Bool.and_eq_true, beq_iff_eq, Entry.isFor] at out
      obtain ⟨⟨pocket, rfl⟩, state⟩ := out
      exact .inr ⟨pocket, state, hk⟩
    · exact .inl ⟨y, List.mem_filter.2 ⟨hy, by simp [Bool.eq_false_iff.2 out]⟩, rfl⟩
  · rw [queue] at hx
    exact .inl ⟨x, (List.mem_filter.1 hx).1, rfl⟩

/-- The link record of `q` changes in what convergence notes there. -/
theorem Work.onLink_posts (w : Work) {f : PocketLink → PocketLink} (latch : ∀ l, (f l).latchSeen = l.latchSeen)
    (owed : ∀ l, (f l).safeOwed = l.safeOwed) (stop : ∀ l, l.stopPosted = true → (f l).stopPosted = true)
    (off : ∀ l, l.heatOffPosted = true → (f l).heatOffPosted = true) : State.Posts m h q w.toState (w.onLink q f).toState := by
  have self : (w.onLink q f).pocketLink q = f (w.pocketLink q) := Work.pocketLink_onLink_self _ _ _
  refine ⟨fun p hp => Work.pocketLink_onLink_other _ _ hp, ?_, ?_, ?_, ?_, fun y hy => .inl ⟨y, hy, rfl⟩, fun x hx => .inl ⟨x, hx, rfl⟩⟩
  · rw [self, latch]
  · rw [self, owed]
  · rw [self]
    exact stop _
  · rw [self]
    exact off _

theorem Work.postStop_posts {w : Work} (free : w.noneOwed) (hm : m = false) : State.Posts m h q w.toState (w.postStop q).toState := by
  unfold Work.postStop
  split
  · have joined : State.Posts m h q w.toState (w.join q .stop).toState := Work.join_posts w (.inl ⟨rfl, hm⟩)
    refine (joined.trans (Work.removeEntries_posts (State.noneOwed_of_posts joined free) (.inl ⟨rfl, hm⟩))).trans ?_
    exact Work.onLink_posts _ (fun _ => rfl) (fun _ => rfl) (fun _ _ => rfl) (fun _ h => h)
  · exact .refl _

theorem Work.postRun_posts (w : Work) (hm : m = true) : State.Posts m h q w.toState (w.postRun q).toState := by
  unfold Work.postRun
  split
  · exact Work.join_posts w (.inr (.inl ⟨rfl, hm⟩))
  · exact .refl _

theorem Work.releaseReservation_link (w : Work) (p : Pocket) : (w.releaseReservation p).link = w.link := by
  unfold Work.releaseReservation
  split <;> rfl

theorem Work.demandRead_link (w : Work) (p : Pocket) (why : ReadPurpose) : (w.demandRead p why).link = w.link := by
  unfold Work.demandRead
  split <;> rfl

/-- A part of the state beside the link changes. -/
theorem State.Posts.then_link {s t u : State} (a : State.Posts m h q s t) (e : u.link = t.link) : State.Posts m h q s u :=
  a.trans (.of_link (by rw [e]) (by rw [e]))

theorem Work.postHeatOff_posts {w : Work} (free : w.noneOwed) (hh : h = false) : State.Posts m h q w.toState (w.postHeatOff q).toState := by
  unfold Work.postHeatOff
  split
  · have joined : State.Posts m h q w.toState (w.join q .heatOff).toState := Work.join_posts w (.inr (.inr (.inl ⟨rfl, hh⟩)))
    refine ((joined.trans (Work.removeEntries_posts (State.noneOwed_of_posts joined free) (.inr ⟨rfl, hh⟩))).trans ?_).then_link
      (Work.releaseReservation_link _ _)
    exact Work.onLink_posts _ (fun _ => rfl) (fun _ => rfl) (fun _ h => h) (fun _ _ => rfl)
  · exact .refl _

theorem Work.postHeatOn_posts (w : Work) (hh : h = true) : State.Posts m h q w.toState (w.postHeatOn q).toState := by
  unfold Work.postHeatOn
  split
  · refine State.Posts.then_link ?_ (Work.demandRead_link _ _ _)
    refine (Work.join_posts w (k := .heatOn) (.inr (.inr (.inr (.inl ⟨rfl, hh⟩))))).trans ?_
    have bare (e : Entry) : (if e.isFor q && e.kind == .heatOn && e.state == .unsent then { e with level := none } else e).bare = e.bare := by
      split <;> rfl
    refine ⟨fun _ _ => rfl, rfl, rfl, id, id, fun y hy => .inl ⟨_, List.mem_map.2 ⟨y, hy, rfl⟩, bare y⟩, fun x hx => ?_⟩
    obtain ⟨y, hy, rfl⟩ := List.mem_map.1 hx
    exact .inl ⟨y, hy, (bare y).symm⟩
  · exact .refl _

theorem Work.convergeMotor_posts {w : Work} (free : w.noneOwed) :
    State.Posts (w.motorDesired q) h q w.toState (w.convergeMotor q).toState := by
  unfold Work.convergeMotor
  split
  · next stop =>
    exact Work.postStop_posts free (by simp only [State.wantsStop, Bool.and_eq_true, Bool.not_eq_true'] at stop; exact stop.1)
  · split
    · next run =>
      exact Work.postRun_posts w (by simp only [State.wantsRun, Bool.and_eq_true] at run; exact run.1.1.1)
    · exact .refl _

theorem Work.convergeHeat_posts {w : Work} (free : w.noneOwed) :
    State.Posts m (w.heatDesired q) q w.toState (w.convergeHeat q).toState := by
  unfold Work.convergeHeat
  split
  · next off =>
    exact Work.postHeatOff_posts free (by simp only [State.wantsHeatOff, Bool.and_eq_true, Bool.not_eq_true'] at off; exact off.1)
  · split
    · next desired =>
      have level (v : Work) : State.Posts m (w.heatDesired q) q v.toState (v.convergeLevel q).toState := by
        unfold Work.convergeLevel
        split
        · exact Work.postHeatOn_posts v desired
        · split
          · exact (State.Posts.refl _).then_link (Work.demandRead_link _ _ _)
          · exact .refl _
      refine State.Posts.trans ?_ (level _)
      split
      · exact Work.onLink_posts w (fun _ => rfl) (fun _ => rfl) (fun _ h => h) (fun _ h => h)
      · exact .refl _
    · exact .refl _

/-- The heat of a record is desired only with its motor, so that what the motor channel posts leaves it as it is. -/
theorem Work.heatDesired_convergeMotor (w : Work) (q : Pocket) : (w.convergeMotor q).heatDesired q = w.heatDesired q := by
  have ctx : (w.convergeMotor q).ctx q = w.ctx q := by
    unfold State.ctx
    rw [State.ctxs_of_offLink (w.convergeMotor_offLink q)]
  by_cases stop : w.wantsStop q = true
  · have off : w.motorDesired q = false := by
      simp only [State.wantsStop, Bool.and_eq_true, Bool.not_eq_true'] at stop
      exact stop.1
    have cold (v : State) (hv : v.ctx q = w.ctx q) : v.heatDesired q = false := by
      unfold State.heatDesired
      rw [hv]
      unfold State.motorDesired at off
      cases hc : w.ctx q with
      | none => rfl
      | some c =>
        rw [hc] at off
        by_cases heat : c.fast.phase = .heat
        · simp only [heat, Bool.and_true] at off
          simp only [off, Bool.false_and]
        · simp [heat]
    rw [cold _ ctx, cold _ rfl]
  · have link : (w.convergeMotor q).pocketLink q = w.pocketLink q := by
      unfold Work.convergeMotor
      rw [if_neg stop]
      split
      · unfold Work.postRun Work.join
        split
        · split <;> rfl
        · rfl
      · rfl
    unfold State.heatDesired State.motorConfirmed
    rw [ctx, link]

/-- **A run of convergence.** -/
theorem Work.convergeOne_posts {w : Work} (free : w.noneOwed) (q : Pocket) :
    State.Posts (w.motorDesired q) (w.heatDesired q) q w.toState (w.convergeOne q).toState := by
  unfold Work.convergeOne
  split
  · have motor : State.Posts (w.motorDesired q) (w.heatDesired q) q w.toState (w.convergeMotor q).toState := Work.convergeMotor_posts free
    have heat := Work.convergeHeat_posts (m := w.motorDesired q) (q := q) (State.noneOwed_of_posts motor free)
    rw [Work.heatDesired_convergeMotor] at heat
    exact motor.trans heat
  · exact .refl _

/-! ### What stands through convergence -/

/-- Nothing but a RUN or HEAT_ON that is no longer desired leaves. -/
theorem State.queued_of_posts {s t : State} {p : Pocket} {k : CommandKind} (a : State.Posts m h q s t) (hq : s.queued p k = true)
    (stays : q = p → (k = .run → m = true) ∧ (k = .heatOn → h = true)) : t.queued p k = true := by
  obtain ⟨y, hy, is⟩ := List.any_eq_true.1 hq
  simp only [Bool.and_eq_true, beq_iff_eq, Entry.isFor] at is
  rcases a.keeps y hy with ⟨x, hx, e⟩ | ⟨pocket, -, out⟩
  · obtain ⟨pocket, kind, -⟩ := Entry.eq_of_bare e
    exact List.any_eq_true.2 ⟨x, hx, by simp [Entry.isFor, pocket, kind, is]⟩
  · obtain ⟨run, heatOn⟩ := stays (Option.some.inj (pocket.symm.trans is.1))
    rcases out with ⟨kind, off⟩ | ⟨kind, off⟩
    · exact absurd ((run (is.2.symm.trans kind)).symm.trans off) Bool.noConfusion
    · exact absurd ((heatOn (is.2.symm.trans kind)).symm.trans off) Bool.noConfusion

/-- Of a pocket or a kind that convergence does not post for nothing joins. -/
theorem State.queued_before_posts {s t : State} {p : Pocket} {k : CommandKind} (a : State.Posts m h q s t) (hq : t.queued p k = true)
    (other : q = p → (k ≠ .stop ∨ m = true) ∧ (k ≠ .run ∨ m = false) ∧ (k ≠ .heatOff ∨ h = true) ∧ (k ≠ .heatOn ∨ h = false) ∧
      k ≠ .poll) : s.queued p k = true := by
  obtain ⟨x, hx, is⟩ := List.any_eq_true.1 hq
  simp only [Bool.and_eq_true, beq_iff_eq, Entry.isFor] at is
  rcases a.gains x hx with ⟨y, hy, e⟩ | ⟨pocket, -, new⟩
  · obtain ⟨pocket, kind, -⟩ := Entry.eq_of_bare e
    exact List.any_eq_true.2 ⟨y, hy, by simp [Entry.isFor, pocket, kind, is]⟩
  · obtain ⟨stop, run, off, on, poll⟩ := other (Option.some.inj (pocket.symm.trans is.1))
    rw [is.2] at new
    rcases new with ⟨kind, d⟩ | ⟨kind, d⟩ | ⟨kind, d⟩ | ⟨kind, d⟩ | kind
    · exact absurd (stop.neg_resolve_left kind) (by simp [d])
    · exact absurd (run.neg_resolve_left kind) (by simp [d])
    · exact absurd (off.neg_resolve_left kind) (by simp [d])
    · exact absurd (on.neg_resolve_left kind) (by simp [d])
    · exact absurd kind poll

/-- A STOP that has been posted stands while the motor is not desired. -/
theorem State.stopped_of_posts {s t : State} {p : Pocket} (a : State.Posts m h q s t) (hs : s.stopped p) (hm : q = p → m = false) : t.stopped p := by
  obtain ⟨queued, posted, purged⟩ := hs
  refine ⟨State.queued_of_posts a queued fun _ => ⟨by simp, by simp⟩, ?_, fun x hx hp hk hu => ?_⟩
  · by_cases e : p = q
    · subst e
      exact a.stop posted
    · rw [a.others p e]
      exact posted
  · rcases a.gains x hx with ⟨y, hy, e⟩ | ⟨pocket, -, new⟩
    · obtain ⟨pocket, kind, state⟩ := Entry.eq_of_bare e
      exact purged y hy (by unfold Entry.isFor; rw [pocket]; exact hp) (kind.trans hk) (state.trans hu)
    · have here := hm (Option.some.inj (pocket.symm.trans (by simpa [Entry.isFor] using hp)))
      rw [hk, here] at new
      simp at new

/-- A HEAT_OFF that has been posted stands while the heat is not desired. -/
theorem State.turnedOff_of_posts {s t : State} {p : Pocket} (a : State.Posts m h q s t) (hs : s.turnedOff p) (hh : q = p → h = false) :
    t.turnedOff p := by
  obtain ⟨queued, posted, purged⟩ := hs
  refine ⟨State.queued_of_posts a queued fun _ => ⟨by simp, by simp⟩, ?_, fun x hx hp hk hu => ?_⟩
  · by_cases e : p = q
    · subst e
      exact a.off posted
    · rw [a.others p e]
      exact posted
  · rcases a.gains x hx with ⟨y, hy, e⟩ | ⟨pocket, -, new⟩
    · obtain ⟨pocket, kind, state⟩ := Entry.eq_of_bare e
      exact purged y hy (by unfold Entry.isFor; rw [pocket]; exact hp) (kind.trans hk) (state.trans hu)
    · have here := hh (Option.some.inj (pocket.symm.trans (by simpa [Entry.isFor] using hp)))
      rw [hk, here] at new
      simp at new

theorem Work.postProbe_posts (w : Work) (q : Pocket) : State.Posts m h q w.toState (w.postProbe q).toState := by
  have owes (v : Work) (b : Bool) : State.Posts m h q v.toState (v.onLink q fun l => { l with probeOwed := b }).toState :=
    Work.onLink_posts v (fun _ => rfl) (fun _ => rfl) (fun _ h => h) (fun _ h => h)
  unfold Work.postProbe
  split
  · exact (Work.join_posts w (.inr (.inr (.inr (.inr rfl))))).trans (owes _ _)
  · exact owes _ _

/-- While no SAFE is owed, what convergence, the wait lists and grants each keep is kept by the end of a command. -/
theorem KeptAtEnd.of_posts {P : State → Prop}
    (posts : ∀ (s t : State) (q : Pocket), P s → State.Posts (s.motorDesired q) (s.heatDesired q) q s t → t.offLink = s.offLink → t.arb = s.arb → P t)
    (heat : ∀ (s : State) (x : HeatUnit), P s → P { s with heat := x })
    (grant : ∀ (w : Work) (q : Pocket) (n : Nat), w.request q = some n → P w.toState → P (w.granted q n).toState) :
    KeptAtEnd fun s => s.noneOwed ∧ P s where
  converge w q hw := ⟨State.noneOwed_of_posts (Work.convergeOne_posts hw.1 q) hw.1,
    posts _ _ q hw.2 (Work.convergeOne_posts hw.1 q) (w.convergeOne_offLink q) (w.convergeOne_arb q)⟩
  probe w q _ hw := ⟨State.noneOwed_of_posts (m := w.motorDesired q) (h := w.heatDesired q) (w.postProbe_posts q) hw.1,
    posts _ _ q hw.2 (w.postProbe_posts q) (w.postProbe_offLink q) (w.postProbe_arb q)⟩
  serve w x q r _ hw := by cases x <;> exact ⟨hw.1, heat w.toState _ hw.2⟩
  grant w q n hq hw := ⟨fun p => (w.granted_pocketLink q n p (f := PocketLink.safeOwed) fun _ _ => rfl).trans (hw.1 p), grant w q n hq hw.2⟩

end

/-! ### Commands posted by convergence -/

/-- A command that the limits allow is queued once it has joined. -/
theorem Work.queued_join (w : Work) (q : Pocket) (k : CommandKind) : (w.join q k).queued q k = true := by
  unfold Work.join
  split
  · next merged =>
    obtain ⟨x, hx, is⟩ := List.any_eq_true.1 merged
    simp only [Bool.and_eq_true] at is
    exact List.any_eq_true.2 ⟨x, hx, by simp [is.1]⟩
  · exact List.any_eq_true.2 ⟨Entry.fresh (some q) k, List.mem_append_right _ (List.mem_singleton.2 rfl), by simp [Entry.isFor, Entry.fresh]⟩

/-- STOP is posted, and no RUN waits unsent (R94, R96). -/
theorem Work.postStop_stopped {w : Work} {q : Pocket} (free : w.noneOwed) (admitted : w.admits q .stop = true) : (w.postStop q).stopped q := by
  unfold Work.postStop
  rw [if_pos admitted]
  have joined : State.Posts false false q w.toState (w.join q .stop).toState := Work.join_posts w (.inl ⟨rfl, rfl⟩)
  have none := State.noneOwed_of_posts joined free
  have purged := Work.removeEntries_posts (m := false) (h := false) (q := q) (k := .run) none (.inl ⟨rfl, rfl⟩)
  obtain ⟨-, queue⟩ := Work.removeEntries_link (w := w.join q .stop) (g := fun e => e.isFor q && e.kind == .run && e.state == .unsent) none
    fun e he => by simp_all
  have stays := State.queued_of_posts purged (w.queued_join q .stop) fun _ => ⟨by simp, by simp⟩
  refine ⟨stays, ?_, fun e he hp hk hu => ?_⟩
  · rw [Work.pocketLink_onLink_self]
  · have stays : e ∈ ((w.join q .stop).removeEntries fun e => e.isFor q && e.kind == .run && e.state == .unsent).link.queue := he
    rw [queue] at stays
    simpa [hp, hk, hu] using (List.mem_filter.1 stays).2

/-- HEAT_OFF is posted, and no HEAT_ON waits unsent (R94, R96). -/
theorem Work.postHeatOff_turnedOff {w : Work} {q : Pocket} (free : w.noneOwed) (admitted : w.admits q .heatOff = true) :
    (w.postHeatOff q).turnedOff q := by
  unfold Work.postHeatOff
  rw [if_pos admitted]
  have joined : State.Posts false false q w.toState (w.join q .heatOff).toState := Work.join_posts w (.inr (.inr (.inl ⟨rfl, rfl⟩)))
  have none := State.noneOwed_of_posts joined free
  have purged := Work.removeEntries_posts (m := false) (h := false) (q := q) (k := .heatOn) none (.inr ⟨rfl, rfl⟩)
  obtain ⟨-, queue⟩ := Work.removeEntries_link (w := w.join q .heatOff) (g := fun e => e.isFor q && e.kind == .heatOn && e.state == .unsent) none
    fun e he => by simp_all
  have stays := State.queued_of_posts purged (w.queued_join q .heatOff) fun _ => ⟨by simp, by simp⟩
  refine State.turnedOff_of_posts (m := false) (h := false) (q := q) (s := (((w.join q .heatOff).removeEntries fun e =>
    e.isFor q && e.kind == .heatOn && e.state == .unsent).onLink q fun l => { l with heatOffPosted := true, heatLost := false }).toState)
    ((State.Posts.refl _).then_link (Work.releaseReservation_link _ _)) ⟨?_, ?_, fun e he hp hk hu => ?_⟩ fun _ => rfl
  · exact stays
  · rw [Work.pocketLink_onLink_self]
  · have stays : e ∈ ((w.join q .heatOff).removeEntries fun e => e.isFor q && e.kind == .heatOn && e.state == .unsent).link.queue := he
    rw [queue] at stays
    simpa [hp, hk, hu] using (List.mem_filter.1 stays).2

end Sys2Proof.Machine
end
section
/-! SUPPORT. The grant at the end of the start gap (R97, R119, R120), and the sending of an entry (R95, R100). -/

namespace Sys2Proof.Machine

/-! ### What grants keep -/

/-- A grant to any pocket leaves the motor of `p` desired. -/
theorem State.motorDesired_of_ctx {s t : State} {p : Pocket} (h : t.ctx p = s.ctx p) : t.motorDesired p = s.motorDesired p := by
  unfold State.motorDesired
  rw [h]

theorem State.motorDesired_granted (w : Work) {p : Pocket} (q : Pocket) (n : Nat) (h : w.motorDesired p = true) :
    (w.granted q n).motorDesired p = true := by
  by_cases e : p = q
  · subst e
    unfold State.motorDesired at h ⊢
    rw [Work.granted_ctx_self]
    cases hc : w.ctx p with
    | none => simp [hc] at h
    | some c =>
      rw [hc] at h
      dsimp only [Option.map]
      split
      · cases hp : c.fast.phase <;> simp_all
      · exact h
  · rw [State.motorDesired_of_ctx (w.granted_ctx_other _ _ e)]
    exact h

/-- A motor that is desired stays so, and its RUN stays queued, while no SAFE is owed (R96). -/
theorem State.running_kept (p : Pocket) : KeptAtEnd fun s => s.noneOwed ∧ (s.motorDesired p = true ∧ s.queued p .run = true) := by
  refine KeptAtEnd.of_posts (fun s t q hs posts view _ => ?_) (fun s x hs => hs) (fun w q n _ hw => ?_)
  · refine ⟨(State.motorDesired_of_ctxs (State.ctxs_of_offLink view) p).trans hs.1, State.queued_of_posts posts hs.2 ?_⟩
    rintro rfl
    exact ⟨fun _ => hs.1, by simp⟩
  · refine ⟨State.motorDesired_granted _ q n hw.1, ?_⟩
    unfold State.queued
    rw [Work.granted_queue]
    exact hw.2

/-- The RUN authority of a pocket stands until an exchange or a hold ends it (R97). -/
theorem State.runAuthority_kept (p : Pocket) : KeptAtEnd fun s => (s.pocketLink p).runAuthority = true where
  converge w q h := (PocketLink.runAuthority_of_core (State.core_of_cores (Work.convergeOne_cores w q) p)).trans h
  probe w q _ h := (PocketLink.runAuthority_of_core (State.core_of_cores (Work.postProbe_cores w q) p)).trans h
  serve w x q r _ h := by cases x <;> exact h
  grant w q n _ h := by
    by_cases e : p = q
    · subst e
      rw [Work.granted_pocketLink_self]
    · rw [Work.granted_pocketLink_other _ _ _ e]
      exact h

/-- No time has passed since the last grant. -/
theorem State.sinceGrant_kept : KeptAtEnd fun s => s.arb.sinceGrant = some 0 where
  converge w q h := by rw [Work.convergeOne_arb]; exact h
  probe w q _ h := by rw [Work.postProbe_arb]; exact h
  serve w x q r _ h := by cases x <;> exact h
  grant w q n _ _ := by
    rw [Work.granted_arb]

/-- What a grant to the winner leaves, and all that follows keeps, stands when the command ends. -/
theorem KeptAtEnd.finish_of_winner {P : State → Prop} (K : KeptAtEnd P) {w : Work} (quiet : Work.quiet { w with grant := false } = true) (still : w.gone = 0)
    (asked : w.grant = true) {p : Pocket} {n : Nat} (may : w.mayGrant = true) (wins : w.wins p n) (h : P (w.debtFree.grantTo p n).toState) : P w.finish := by
  rw [Work.finish_of_winner quiet still asked may wins]
  exact K.settle 7 (K.evaluateGrants 4 h)

/-! ### Where no grant is made -/

theorem State.winner_none {s : State} (h : ∀ q, s.eligible q = false) : s.winner = none := by
  rw [s.winner_eq_foldl]
  refine List.foldlRecOn (motive := fun b : Option (Pocket × Nat) => b = none) allPockets _ rfl fun b hb q _ => ?_
  rcases s.better_cases b q with e | ⟨l, -, he, -⟩
  · exact e.trans hb
  · exact absurd he (by simp [h q])

/-- A command that calls for a grant that cannot be made, and owes nothing else, leaves the state as it stands. -/
theorem Work.finish_of_nograntable {w : Work} (quiet : Work.quiet { w with grant := false } = true) (still : w.gone = 0)
    (none : w.mayGrant = false ∨ w.winner = none) : w.finish = w.toState := by
  simp only [Work.quiet, Bool.not_eq_true', Bool.or_eq_false_iff, Option.isSome_eq_false_iff, Option.isNone_iff_eq_none] at quiet
  obtain ⟨⟨⟨⟨anyGone, drop⟩, room⟩, serve⟩, -⟩ := quiet
  have evaluated (k : Nat) : Work.evaluateGrants k w.debtFree = w.debtFree := by
    cases k with
    | zero => rfl
    | succ k =>
      have may : w.debtFree.mayGrant = w.mayGrant := rfl
      have win : w.debtFree.winner = w.winner := rfl
      rw [Work.evaluateGrants, may, win]
      rcases none with h | h <;> simp [h]
  have once : w.settleOnce = w.debtFree := by
    have rest : allPockets.foldl (fun (v : Work) q => if w.drop || w.gone.has q then v.convergeOne q else v) w.debtFree = w.debtFree :=
      foldl_same (fun q => by simp [drop, still, Mask.has]) _
    unfold Work.settleOnce
    simp only [Work.admitHeld_quiet w room, rest, anyGone, serve, Bool.false_eq_true, if_false]
    split
    · exact evaluated 5
    · rfl
  unfold Work.finish Work.settle
  split
  · rfl
  · rw [once]
    exact Work.finish_of_quiet w.debtFree rfl

/-! ### RUN for the winner (R96, R97) -/

/-- Convergence of a pocket that holds the RUN authority queues the RUN it calls for. -/
theorem Work.convergeOne_running {w : Work} {p : Pocket} (free : w.noneOwed) (acts : w.converges p = true) (desired : w.motorDesired p = true)
    (believed : (w.pocketLink p).motorBelieved = false) (authority : (w.pocketLink p).runAuthority = true) (admitted : w.admits p .run = true) :
    (w.convergeOne p).queued p .run = true := by
  have motor : State.Posts true (w.heatDesired p) p w.toState (w.convergeMotor p).toState := desired ▸ Work.convergeMotor_posts free
  have queued : (w.convergeMotor p).queued p .run = true := by
    unfold Work.convergeMotor
    rw [if_neg (by simp [State.wantsStop, desired])]
    split
    · unfold Work.postRun
      rw [if_pos admitted]
      exact w.queued_join p .run
    · next none => simpa [State.wantsRun, desired, believed, authority] using none
  unfold Work.convergeOne
  rw [if_pos acts]
  exact State.queued_of_posts (Work.convergeHeat_posts (m := true) (State.noneOwed_of_posts motor free)) queued fun _ => ⟨fun _ => rfl, by simp⟩

/-- A grant to a pocket whose motor is desired and believed stopped queues its RUN. -/
theorem Work.grantTo_running {w : Work} {p : Pocket} (n : Nat) (ha : w.part = .active) (desired : w.motorDesired p = true)
    (believed : (w.pocketLink p).motorBelieved = false) (posts : w.posts p .run) :
    (w.grantTo p n).noneOwed ∧ ((w.grantTo p n).motorDesired p = true ∧ (w.grantTo p n).queued p .run = true) := by
  obtain ⟨online, free, admitted⟩ := posts
  have self := w.granted_pocketLink_self p n
  have none : (w.granted p n).noneOwed := fun q => (w.granted_pocketLink p n q (f := PocketLink.safeOwed) fun _ _ => rfl).trans (free q)
  have stays := State.motorDesired_granted w p n desired
  rw [Work.grantTo_eq]
  refine (State.running_kept p).admitHeld ⟨State.noneOwed_of_posts (Work.convergeOne_posts none p) none, ?_, ?_⟩
  · rw [State.motorDesired_of_ctxs (State.ctxs_of_offLink (Work.convergeOne_offLink _ p))]
    exact stays
  · refine Work.convergeOne_running none ?_ stays ?_ ?_ ?_
    · unfold State.converges
      rw [self, Work.granted_part]
      simp [ha, online]
    · rw [self]
      exact believed
    · rw [self]
    · unfold State.admits State.unsent State.entryCount at admitted ⊢
      rw [Work.granted_queue]
      exact admitted

theorem Work.grantTo_runAuthority (w : Work) (p : Pocket) (n : Nat) : ((w.grantTo p n).pocketLink p).runAuthority = true := by
  rw [Work.grantTo_eq]
  refine (State.runAuthority_kept p).admitHeld ((State.runAuthority_kept p).converge _ p ?_)
  rw [Work.granted_pocketLink_self]

/-- The state with the start gap met, and a grant to be evaluated (R119). -/
def State.gapEnded (s : State) : Work :=
  { Work.begin s with arb := { s.arb with sinceGrant := s.arb.sinceGrant.map fun ms => max ms (s.setting 8 * 100) }, grant := true }

theorem State.gapEnded_gapMet (s : State) : s.gapEnded.gapMet = true := by
  have met (x : Option Nat) (n : Nat) : (match x.map fun ms => max ms n with | none => true | some ms => decide (n ≤ ms)) = true := by
    cases x with
    | none => rfl
    | some ms => exact decide_eq_true (Nat.le_max_right ms n)
  exact met s.arb.sinceGrant _

theorem State.gapEnded_mayGrant {s : State} : s.gapEnded.mayGrant = (decide (s.arb.slots.length < s.setting 7) && !s.sag.active && s.part == .active) := by
  have met := s.gapEnded_gapMet
  unfold State.mayGrant
  rw [met, Bool.and_true]
  rfl

theorem exec_startGapEnd {s : State} (hp : s.powered = true) (ha : s.part = .active) : exec .startGapEnd s = .next s.gapEnded.finish := by
  have e : exec .startGapEnd s = execStartGapEnd s := rfl
  rw [e, execStartGapEnd, powered_on hp, if_pos (by exact ha)]
  rfl

/-- Settles O46. -/
theorem grantGoesToTheWinner : Obligations.GrantGoesToTheWinner := by
  unfold Obligations.GrantGoesToTheWinner
  intro p n s hp ha
  have view : s.gapEnded.finish.offGrant = s.offGrant := by
    rw [Work.finish_offGrant]
    rfl
  rw [exec_startGapEnd hp ha]
  refine ⟨fun allowed wins free => ?_, fun refused => ?_⟩
  · obtain ⟨-, -, slots, sag⟩ := allowed
    have may : s.gapEnded.mayGrant = true := by
      rw [State.gapEnded_mayGrant]
      simp [slots, sag, ha]
    have kept {P : State → Prop} (K : KeptAtEnd P) (h : P (s.gapEnded.debtFree.grantTo p n).toState) : P s.gapEnded.finish :=
      K.finish_of_winner (w := s.gapEnded) rfl rfl rfl may wins h
    obtain ⟨request, slot⟩ := Work.finish_grants_winner (w := s.gapEnded) rfl rfl rfl may wins free
    exact ⟨_, rfl, request, slot, kept (State.runAuthority_kept p) (Work.grantTo_runAuthority _ _ _),
      kept State.sinceGrant_kept (by rw [Work.grantTo_arb]), view,
      fun desired believed posts => (kept (State.running_kept p) (Work.grantTo_running n ha desired believed posts)).2.2⟩
  · have ended : s.gapEnded.finish = s.gapEnded.toState := by
      refine Work.finish_of_nograntable rfl rfl ?_
      rcases refused with full | sag | h
      · exact .inl (by rw [State.gapEnded_mayGrant]; simp [full])
      · exact .inl (by rw [State.gapEnded_mayGrant]; simp [sag])
      · exact .inr (State.winner_none h)
    rw [ended] at view ⊢
    exact ⟨_, rfl, rfl, rfl, view⟩

end Sys2Proof.Machine
end
section
/-! SUPPORT. What may join the link queue, whatever SAFEs are owed (R93 to R96, R105), and the sending of an entry (R95, R100). -/

namespace Sys2Proof.Machine

/-! ### What joins the queue -/

/-- Between the states `s` and `t` of one run only entries of pockets that `Q` allows, or that had entries before, have joined
or been rewritten, each UNSENT; no SAFE has become owed, and a probe only for such a pocket. -/
structure State.Brings (Q : Pocket → Prop) (s t : State) : Prop where
  entries : ∀ x ∈ t.link.queue, x ∈ s.link.queue ∨ (x.state = .unsent ∧ ∃ q, x.pocket = some q ∧ (Q q ∨ ∃ y ∈ s.link.queue, y.pocket = some q))
  safe : ∀ q, (t.pocketLink q).safeOwed = true → (s.pocketLink q).safeOwed = true
  probe : ∀ q, (t.pocketLink q).probeOwed = true → (s.pocketLink q).probeOwed = true ∨ Q q ∨ ∃ y ∈ s.link.queue, y.pocket = some q

section
variable {Q : Pocket → Prop}

theorem State.Brings.refl (s : State) : State.Brings Q s s := ⟨fun _ h => .inl h, fun _ h => h, fun _ h => .inl h⟩

/-- A pocket that has entries had them before, or is one that `Q` allows. -/
theorem State.Brings.origin {s t : State} (a : State.Brings Q s t) {q : Pocket} (h : ∃ y ∈ t.link.queue, y.pocket = some q) :
    Q q ∨ ∃ y ∈ s.link.queue, y.pocket = some q := by
  obtain ⟨y, hy, pocket⟩ := h
  rcases a.entries y hy with old | ⟨-, q', pocket', from'⟩
  · exact .inr ⟨y, old, pocket⟩
  · obtain rfl := Option.some.inj (pocket'.symm.trans pocket)
    exact from'

theorem State.Brings.trans {s t u : State} (a : State.Brings Q s t) (b : State.Brings Q t u) : State.Brings Q s u where
  entries x hx := by
    rcases b.entries x hx with old | ⟨state, q, pocket, allowed | had⟩
    · exact a.entries x old
    · exact .inr ⟨state, q, pocket, .inl allowed⟩
    · exact .inr ⟨state, q, pocket, a.origin had⟩
  safe q h := a.safe q (b.safe q h)
  probe q h := by
    rcases b.probe q h with owed | allowed | had
    · exact a.probe q owed
    · exact .inr (.inl allowed)
    · exact .inr (a.origin had)

theorem State.Brings.mono {Q' : Pocket → Prop} {s t : State} (a : State.Brings Q s t) (h : ∀ q, Q q → Q' q) : State.Brings Q' s t where
  entries x hx := (a.entries x hx).imp id fun ⟨state, q, pocket, from'⟩ => ⟨state, q, pocket, from'.imp (h q) id⟩
  safe := a.safe
  probe q hq := (a.probe q hq).imp id (Or.imp (h q) id)

/-- The links of two states are the same. -/
theorem State.Brings.of_link {s t : State} (e : t.link = s.link) : State.Brings Q s t := by
  have same (p : Pocket) : t.pocketLink p = s.pocketLink p := congrArg (fun l : LinkCtl => l.pockets[p]) e
  refine ⟨?_, fun q => by rw [same]; exact id, fun q => by rw [same]; exact .inl⟩
  rw [e]
  exact fun _ h => .inl h

/-- Entries leave the queue, or stay. -/
theorem State.Brings.of_subset {s t : State} (sub : ∀ x ∈ t.link.queue, x ∈ s.link.queue)
    (safe : ∀ q, (t.pocketLink q).safeOwed = (s.pocketLink q).safeOwed) (probe : ∀ q, (t.pocketLink q).probeOwed = (s.pocketLink q).probeOwed) :
    State.Brings Q s t := ⟨fun x hx => .inl (sub x hx), fun q h => (safe q).symm.trans h, fun q h => .inl ((probe q).symm.trans h)⟩

/-- The link record of a pocket changes in neither of what is owed. -/
theorem Work.onLink_brings (w : Work) (q : Pocket) {f : PocketLink → PocketLink} (safe : ∀ l, (f l).safeOwed = true → l.safeOwed = true)
    (probe : ∀ l, (f l).probeOwed = true → l.probeOwed = true ∨ Q q) : State.Brings Q w.toState (w.onLink q f).toState := by
  refine ⟨fun _ h => .inl h, fun p h => ?_, fun p h => ?_⟩
  · by_cases e : p = q
    · subst e
      rw [Work.pocketLink_onLink_self] at h
      exact safe _ h
    · rwa [Work.pocketLink_onLink_other _ _ e] at h
  · by_cases e : p = q
    · subst e
      rw [Work.pocketLink_onLink_self] at h
      exact (probe _ h).imp id .inl
    · rw [Work.pocketLink_onLink_other _ _ e] at h
      exact .inl h

theorem Work.clearLatchSeen_brings : ∀ (es : List Entry) (w : Work), State.Brings Q w.toState (w.clearLatchSeen es).toState
  | [], w => .refl _
  | e :: es, w => by
    unfold Work.clearLatchSeen
    split
    · refine State.Brings.trans ?_ (Work.clearLatchSeen_brings es _)
      exact Work.onLink_brings w _ (by exact fun _ h => h) (by exact fun _ h => .inl h)
    · exact Work.clearLatchSeen_brings es w

theorem Work.leave_brings (w : Work) {left stay : List Entry} (h : ∀ x ∈ stay, x ∈ w.link.queue) : State.Brings Q w.toState (w.leave left stay).toState := by
  unfold Work.leave
  split
  · exact .refl _
  · refine State.Brings.trans ?_ (Work.clearLatchSeen_brings left _)
    exact State.Brings.of_subset h (fun _ => rfl) (fun _ => rfl)

theorem Work.dropEntries_brings (w : Work) (g : Entry → Bool) : State.Brings Q w.toState (w.dropEntries g).toState :=
  w.leave_brings fun _ hx => (List.mem_filter.1 hx).1

theorem mem_of_mem_dropLast {α : Type} {f : α → Bool} {x : α} : ∀ {l : List α}, x ∈ dropLast f l → x ∈ l
  | a :: l, h => by
    unfold dropLast at h
    split at h
    · rcases List.mem_cons.1 h with rfl | h
      · exact List.mem_cons_self
      · exact List.mem_cons_of_mem _ (mem_of_mem_dropLast h)
    · split at h
      · exact List.mem_cons_of_mem _ h
      · exact h

theorem Work.dropNewest_brings (w : Work) (g : Entry → Bool) : State.Brings Q w.toState (w.dropNewest g).toState :=
  w.leave_brings fun _ hx => mem_of_mem_dropLast hx

/-- A full queue makes room; a probe that leaves is owed again. -/
theorem Work.makeRoom_brings (w : Work) : State.Brings Q w.toState w.makeRoom.toState := by
  unfold Work.makeRoom
  split
  · exact .refl _
  · split
    · rename_i e he
      have mem : e ∈ w.link.queue := List.mem_reverse.1 (List.mem_of_find?_eq_some he)
      have drop : State.Brings (fun q => ∃ y ∈ w.link.queue, y.pocket = some q) w.toState (w.dropNewest (·.waits .poll)).toState :=
        Work.dropNewest_brings _ _
      unfold Work.oweProbe
      split
      · rename_i q hq
        have pocket : e.pocket = some q := hq
        split
        · have owed := drop.trans (Work.onLink_brings (w.dropNewest (·.waits .poll)) q (f := fun l => { l with probeOwed := true })
            (fun _ h => h) (fun _ _ => .inr ⟨e, mem, pocket⟩))
          exact ⟨fun x hx => (owed.entries x hx).imp id fun ⟨state, r, hr, from'⟩ => ⟨state, r, hr, .inr (from'.elim id id)⟩, owed.safe,
            fun r hr => (owed.probe r hr).imp id fun from' => .inr (from'.elim id id)⟩
        · exact w.dropNewest_brings _
      · exact w.dropNewest_brings _
    · exact w.dropNewest_brings _

/-- A fresh entry joins at the tail. -/
theorem Work.join_brings (w : Work) {q : Pocket} (hq : Q q) (k : CommandKind) : State.Brings Q w.toState (w.join q k).toState := by
  unfold Work.join
  split
  · exact .refl _
  · refine ⟨fun x hx => ?_, fun _ h => h, fun _ h => .inl h⟩
    rcases List.mem_append.1 hx with old | new
    · exact .inl old
    · obtain rfl := List.mem_singleton.1 new
      exact .inr ⟨rfl, q, rfl, .inl hq⟩

/-- A SAFE that is owed joins, or stays owed. -/
theorem Work.putSafe_brings (w : Work) {q : Pocket} (hq : Q q) (owed : (w.pocketLink q).safeOwed = true) : State.Brings Q w.toState (w.putSafe q).toState := by
  unfold Work.putSafe
  dsimp only
  generalize hg : (fun e : Entry => e.isFor q && e.state != .inFlight && !(e.kind == .safe && e.state == .unsent)) = g
  have room : State.Brings Q w.toState (w.dropEntries g).makeRoom.toState := (w.dropEntries_brings g).trans (Work.makeRoom_brings _)
  split
  · exact w.dropEntries_brings g
  · split
    · refine room.trans (State.Brings.trans ?_ (Work.onLink_brings _ q (fun _ h => absurd h Bool.noConfusion) fun _ h => .inl h))
      refine ⟨fun x hx => ?_, fun _ h => h, fun _ h => .inl h⟩
      rcases List.mem_cons.1 hx with rfl | old
      · exact .inr ⟨rfl, q, rfl, .inl hq⟩
      · exact .inl old
    · refine ⟨fun x hx => room.entries x hx, fun p h => ?_, fun p h => ?_⟩
      · by_cases e : p = q
        · subst e
          exact owed
        · rw [Work.pocketLink_onLink_other _ _ e] at h
          exact room.safe p h
      · by_cases e : p = q
        · subst e
          rw [Work.pocketLink_onLink_self] at h
          exact room.probe p h
        · rw [Work.pocketLink_onLink_other _ _ e] at h
          exact room.probe p h

section
variable {w : Work} (hs : ∀ q, (w.pocketLink q).safeOwed = true → Q q)
include hs

/-- The SAFEs that are owed join. -/
theorem Work.admitSafes_brings : State.Brings Q w.toState w.admitSafes.toState := by
  unfold Work.admitSafes
  split
  · refine List.foldlRecOn (motive := fun v : Work => State.Brings Q w.toState v.toState) allPockets _ (.refl _) fun v hv q _ => ?_
    split
    · next owed => exact hv.trans (v.putSafe_brings (hs q (hv.safe q owed)) owed)
    · exact hv
  · exact .refl _

theorem Work.removeEntries_brings (g : Entry → Bool) : State.Brings Q w.toState (w.removeEntries g).toState := by
  unfold Work.removeEntries
  split
  · have dropped : State.Brings Q w.toState (w.dropEntries g).toState := w.dropEntries_brings g
    exact dropped.trans (Work.admitSafes_brings fun q h => hs q (dropped.safe q h))
  · exact .refl _

variable {q : Pocket} (hq : Q q)
include hq

theorem Work.convergeMotor_brings : State.Brings Q w.toState (w.convergeMotor q).toState := by
  unfold Work.convergeMotor Work.postStop Work.postRun
  split
  · split
    · have joined : State.Brings Q w.toState (w.join q .stop).toState := w.join_brings hq .stop
      refine State.Brings.trans ?_ (Work.onLink_brings _ q (by exact fun _ h => h) (by exact fun _ h => .inl h))
      exact joined.trans (Work.removeEntries_brings (fun p h => hs p (joined.safe p h)) _)
    · exact .refl _
  · split
    · split
      · exact w.join_brings hq .run
      · exact .refl _
    · exact .refl _

omit hs in
theorem Work.postHeatOn_brings : State.Brings Q w.toState (w.postHeatOn q).toState := by
  unfold Work.postHeatOn
  split
  · refine State.Brings.trans (State.Brings.trans (w.join_brings hq .heatOn) ?_) (State.Brings.of_link (Work.demandRead_link _ _ _))
    refine ⟨fun x hx => ?_, fun _ h => h, fun _ h => .inl h⟩
    obtain ⟨y, hy, rfl⟩ := List.mem_map.1 hx
    split
    · next waits =>
      simp only [Bool.and_eq_true, beq_iff_eq, Entry.isFor] at waits
      exact .inr ⟨waits.2, q, waits.1.1, .inl hq⟩
    · exact .inl hy
  · exact .refl _

theorem Work.convergeHeat_brings : State.Brings Q w.toState (w.convergeHeat q).toState := by
  unfold Work.convergeHeat Work.postHeatOff
  split
  · split
    · have joined : State.Brings Q w.toState (w.join q .heatOff).toState := w.join_brings hq .heatOff
      refine State.Brings.trans ?_ (State.Brings.of_link (Work.releaseReservation_link _ _))
      refine State.Brings.trans ?_ (Work.onLink_brings _ q (by exact fun _ h => h) (by exact fun _ h => .inl h))
      exact joined.trans (Work.removeEntries_brings (fun p h => hs p (joined.safe p h)) _)
    · exact .refl _
  · split
    · have level (v : Work) (hv : ∀ q, (v.pocketLink q).safeOwed = true → Q q) : State.Brings Q v.toState (v.convergeLevel q).toState := by
        unfold Work.convergeLevel
        split
        · exact Work.postHeatOn_brings hq
        · split
          · exact State.Brings.of_link (Work.demandRead_link _ _ _)
          · exact .refl _
      have lost : State.Brings Q w.toState (if (w.pocketLink q).heatLost then w.onLink q fun l => { l with heatLost := false } else w).toState := by
        split
        · exact Work.onLink_brings w q (fun _ h => h) fun _ h => .inl h
        · exact .refl _
      exact lost.trans (level _ fun p h => hs p (lost.safe p h))
    · exact .refl _

/-- **A run of convergence.** -/
theorem Work.convergeOne_brings : State.Brings Q w.toState (w.convergeOne q).toState := by
  unfold Work.convergeOne
  split
  · have motor : State.Brings Q w.toState (w.convergeMotor q).toState := Work.convergeMotor_brings hs hq
    exact motor.trans (Work.convergeHeat_brings (fun p h => hs p (motor.safe p h)) hq)
  · exact .refl _

end

theorem Work.postProbe_brings (w : Work) {q : Pocket} (hq : Q q) : State.Brings Q w.toState (w.postProbe q).toState := by
  have owes (v : Work) (b : Bool) : State.Brings Q v.toState (v.onLink q fun l => { l with probeOwed := b }).toState :=
    Work.onLink_brings v q (fun _ h => h) fun _ _ => .inr hq
  unfold Work.postProbe
  split
  · exact (w.join_brings hq .poll).trans (owes _ _)
  · exact owes _ _

end

end Sys2Proof.Machine
end
section
/-! SUPPORT. The sending of an entry (R84, R86, R95, R100). -/

namespace Sys2Proof.Machine

/-- An entry that is not UNSENT does not come back (R92, R93). -/
theorem State.notQueued_kept {e : Entry} (h : e.state ≠ .unsent) : KeptAtEnd fun s => e ∉ s.link.queue := by
  have keeps {s t : State} (a : State.Brings (fun _ => True) s t) (hs : e ∉ s.link.queue) : e ∉ t.link.queue := fun he =>
    (a.entries e he).elim hs fun ⟨state, _⟩ => h state
  exact {
    converge w q hw := keeps (Work.convergeOne_brings (fun _ _ => trivial) trivial) hw
    probe w q _ hw := keeps (w.postProbe_brings trivial) hw
    serve w x q r _ hw := by cases x <;> exact hw
    grant w q n _ hw := by
      rw [Work.granted_queue]
      exact hw }

/-! ### The entry that is sent -/

/-- The scan for the entry to send stops at the first that is ready, none of its pocket being older. -/
theorem nextToSend_append {e : Entry} {after : List Entry} (ready : e.ready = true) :
    ∀ (before older : List Entry), (∀ x ∈ before, x.ready = false ∧ x.pocket ≠ e.pocket) → (∀ x ∈ older, x.pocket ≠ e.pocket) →
      nextToSend older (before ++ e :: after) = some e
  | [], older, _, hold => by
    have first : older.any (fun x => x.pocket == e.pocket) = false := by
      rw [List.any_eq_false]
      exact fun x hx => by simpa using hold x hx
    simp [nextToSend, ready, first]
  | x :: before, older, hb, hold => by
    obtain ⟨⟨waits, other⟩, hb⟩ := List.forall_mem_cons.1 hb
    rw [List.cons_append, nextToSend, if_neg (by simp [waits])]
    refine nextToSend_append ready before (older ++ [x]) hb fun y hy => ?_
    rcases List.mem_append.1 hy with old | new
    · exact hold y old
    · rw [List.mem_singleton.1 new]
      exact other

/-- The first element that satisfies `f` is changed. -/
theorem onFirst_append {α : Type} {f : α → Bool} {g : α → α} {a : α} {after : List α} (h : f a = true) :
    ∀ before : List α, (∀ x ∈ before, f x = false) → onFirst f g (before ++ a :: after) = before ++ g a :: after
  | [], _ => by simp [onFirst, h]
  | x :: before, hb => by
    obtain ⟨hx, hb⟩ := List.forall_mem_cons.1 hb
    rw [List.cons_append, onFirst, if_neg (by simp [hx]), onFirst_append h before hb]
    rfl

/-- The queue once the oldest ready entry is on its way. -/
theorem sentQueue {q before after : List Entry} {e : Entry} (queue : q = before ++ e :: after) (ready : e.ready = true)
    (older : ∀ x ∈ before, x.ready = false ∧ x.pocket ≠ e.pocket) :
    onFirst (· == e) (fun x => { x with state := .inFlight }) q = before ++ { e with state := .inFlight } :: after := by
  rw [queue]
  refine onFirst_append (by simp) before fun x hx => ?_
  obtain ⟨waits, -⟩ := older x hx
  exact Bool.eq_false_iff.2 fun same => by simp [← eq_of_beq same, waits] at ready

section
variable {s : State} (hp : s.powered = true) (free : s.inFlight = none)
include hp free

theorem exec_linkFrameSend_of_next {e : Entry} (next : nextToSend [] s.link.queue = some e) :
    exec .linkFrameSend s = .next (Work.finish (if e.state = .unsent || s.retryTest e then
      (if e.pocket.isNone then ((Work.begin s).sendEntry (· == e) { e with state := .inFlight }).believeAllSafe
        else (Work.begin s).sendEntry (· == e) { e with state := .inFlight })
      else (Work.begin s).removeEntries (· == e))) := by
  have e' : exec .linkFrameSend s = execLinkFrameSend s := rfl
  have idle : (Work.begin s).inFlight = none := free
  have first : nextToSend [] (Work.begin s).link.queue = some e := next
  rw [e', execLinkFrameSend, powered_on hp]
  simp only [idle, first]
  rfl

end

/-- Settles O38. -/
theorem oldestEntryIsSent : Obligations.OldestEntryIsSent := by
  unfold Obligations.OldestEntryIsSent
  intro e before after s hp
  refine ⟨fun busy => ?_, fun free queue ready older => ⟨fun sends => ⟨fun unicast => ?_, fun broadcast => ?_⟩,
    fun p waited run pocket refused => ?_⟩⟩
  · have e' : exec .linkFrameSend s = execLinkFrameSend s := rfl
    rw [e', execLinkFrameSend, powered_on hp, if_pos (by exact Option.isSome_iff_ne_none.2 busy)]
    exact congrArg Host.Outcome.next (Work.finish_of_quiet _ rfl)
  all_goals
    have next : nextToSend [] s.link.queue = some e := by
      rw [queue]
      exact nextToSend_append ready before [] older fun _ h => nomatch h
    rw [exec_linkFrameSend_of_next hp free next]
  · have first := sentQueue queue ready older
    rw [if_pos (by rcases sends with h | h <;> simp [h]), if_neg (by simpa using unicast)]
    refine congrArg Host.Outcome.next ((Work.finish_of_quiet _ rfl).trans ?_)
    show ({ s with link := { s.link with queue := onFirst _ _ s.link.queue, windowMs := 4, sent := e.bytes } } : State) = _
    rw [first]
  · have first := sentQueue queue ready older
    rw [if_pos (by rcases sends with h | h <;> simp [h]), if_pos (by simp [broadcast])]
    refine congrArg Host.Outcome.next ((Work.finish_of_quiet _ rfl).trans ?_)
    show ({ s with link := { s.link with queue := onFirst _ _ s.link.queue, windowMs := 4, sent := e.bytes, pockets := _ } } : State) = _
    rw [first]
    rfl
  · have failed : s.retryTest e = false := by
      unfold State.retryTest
      rw [pocket, run]
      rcases refused with h | h <;> simp [h]
    rw [if_neg (by simp [waited, failed])]
    refine ⟨_, rfl, ?_, (State.notQueued_kept waited).finish ?_⟩
    · rw [Work.finish_of_ungranted (by simp), Work.removeEntries_offLink]
      rfl
    · intro stays
      have present : (Work.begin s).link.queue.any (· == e) = true := List.any_eq_true.2 ⟨e, by simp [queue], by simp⟩
      unfold Work.removeEntries at stays
      rw [if_pos present] at stays
      have dropped : e ∉ ((Work.begin s).dropEntries (· == e)).link.queue := by
        rw [Work.dropEntries_queue]
        simp
      rcases (Work.admitSafes_brings (Q := fun _ => True) fun _ _ => trivial).entries e stays with old | ⟨state, -⟩
      · exact dropped old
      · exact waited state

end Sys2Proof.Machine
end
section
/-! SUPPORT. The map, the settings and the header area: what a write of a map word leaves, and the operations that retire a
record, repair or remap a pocket, write a settings word and format the store. -/

namespace Sys2Proof.Machine

/-! ### A map write (R37) -/

theorem mapWord_lt (p : Pocket) : mapWord p < Config.storeWords := by
  unfold mapWord Config.storeWords
  omega

/-- The map word of `p` written in the array and the mirror, not yet read back. -/
def Work.mapPut (w : Work) (p : Pocket) (e : MapEntry) : Work := { w with toState := w.toState.mapWritten p e }

/-- The read-back of the map word of `p` (R37). -/
def Work.mapReadBack (w : Work) (p : Pocket) : Work :=
  let v := w.readWord (mapWord p) .read true
  if w.readable (mapWord p) || v.ctl.mapFault.has p then v
  else { v.markPart .store with ctl := { v.ctl with mapFault := v.ctl.mapFault.put p true } }

theorem Work.writeMap_eq (w : Work) (p : Pocket) (e : MapEntry) :
    w.writeMap p e = ((w.mapPut p e).failAfterWrite (mapWord p)).mapReadBack p := rfl

theorem Store.setFlaw_map (s : Store) (n : Nat) (v : Option Flaw) : (s.setFlaw n v).map = s.map := by
  unfold Store.setFlaw
  split <;> rfl

theorem Work.mapPut_flaw {w : Work} (hw : w.storeWf) (p : Pocket) (e : MapEntry) : (w.mapPut p e).store.flaw (mapWord p) = none :=
  Store.flaw_setFlaw_self (s := { w.store with map := upd w.store.map p e }) (Store.wf_of_flaws rfl hw) (mapWord_lt p) none

theorem State.mapGood_mapPut {w : Work} (hw : w.storeWf) (p : Pocket) (e : MapEntry) : (w.mapPut p e).mapGood p = true :=
  State.readable_clean (Work.mapPut_flaw hw p e)

/-- A map write whose read-back does not fail leaves the word clean, whatever it held (R33, R37). -/
theorem Work.writeMap_good {w : Work} {p : Pocket} (hw : w.storeWf) (hp : w.post = []) (e : MapEntry) : w.writeMap p e = w.mapPut p e := by
  have flaw := Work.mapPut_flaw hw p e
  rw [Work.writeMap_eq, Work.failAfterWrite_clean (by exact hp), Work.mapReadBack, Work.readWord_clean flaw]
  simp [State.readable_clean flaw]

theorem Mask.put_of_has {m : Mask} {p : Pocket} (h : m.has p = true) : m.put p true = m := by
  unfold Mask.put
  rw [if_pos rfl]
  ext i hi
  simp only [Mask.has] at h
  simp only [BitVec.getElem_or, BitVec.getElem_twoPow]
  by_cases e : i = p.val
  · subst e
    rw [← BitVec.getLsbD_eq_getElem hi, h, Bool.true_or]
  · simp [e]

/-- What a map write leaves whose read-back cannot be read (R37). -/
structure State.MapFaulted (s t : State) (p : Pocket) (e : MapEntry) : Prop where
  bad : t.mapGood p = false
  fault : t.ctl.mapFault = s.ctl.mapFault.put p true
  told : s.ctl.mapFault.has p = false → t.events.store = true
  map : t.store.map = upd s.store.map p e
  mirror : t.ctl.mirror = upd s.ctl.mirror p e
  current : t.ctl.current = s.ctl.current
  free : t.ctl.free = s.ctl.free
  flaw : t.store.flaw (mapWord p) = some .uncorrectable
  part : t.part = s.part
  port : t.port = s.port
  ctxs : t.ctxs = s.ctxs

/-- An uncorrectable word reads as such, and at most the error latch learns of it (R33, R49). -/
theorem Work.readWord_uncorrectable {w : Work} {n : Nat} (hf : w.store.flaw n = some .uncorrectable) (src : LatchSource) (b : Bool) :
    w.readWord n src b = w.offer n .uncorrectable src := by simp [Work.readWord, hf]

/-- An error offered to the latch changes the latch and the STORE mark at most (R49). -/
theorem Work.offer_cases (w : Work) (n : Nat) (x : Flaw) (src : LatchSource) :
    w.offer n x src = w ∨ ∃ l, w.offer n x src = { w.markPart .store with ctl := { w.ctl with latch := l } } := by
  unfold Work.offer
  dsimp only
  split
  · exact .inr ⟨_, rfl⟩
  · exact .inr ⟨_, rfl⟩
  · exact .inr ⟨_, rfl⟩
  · exact .inl rfl

theorem lookup_putFlaw_some (n : Nat) (x : Flaw) : ∀ l : List (Nat × Flaw), (putFlaw l n (some x)).lookup n = some x
  | [] => by simp [putFlaw]
  | (m, y) :: r => by
    unfold putFlaw
    split
    · simp
    · split
      · simp
      · next above other =>
        have apart : (n == m) = false := by simpa using other
        rw [List.lookup_cons, apart]
        exact lookup_putFlaw_some n x r

/-- A word that has failed has its flaw. -/
theorem Store.flaw_setFlaw_some (s : Store) {n : Nat} (hn : n < Config.storeWords) (x : Flaw) : (s.setFlaw n (some x)).flaw n = some x := by
  unfold Store.setFlaw
  rw [if_pos hn]
  exact lookup_putFlaw_some n x s.flaws

/-- A map write whose read-back cannot be read (R37). -/
theorem Work.writeMap_unread {w : Work} {p : Pocket} {e : MapEntry} (clean : (w.mapPut p e).store.flaw (mapWord p) = none)
    (hp : w.post = [(mapWord p, .uncorrectable)]) :
    State.MapFaulted w.toState (w.writeMap p e).toState p e ∧ (w.writeMap p e).quiet = w.quiet := by
  have failed : (w.mapPut p e).failAfterWrite (mapWord p) =
      { w.mapPut p e with store := (w.mapPut p e).store.setFlaw (mapWord p) (some .uncorrectable) } := by
    have post : (w.mapPut p e).post = [(mapWord p, .uncorrectable)] := hp
    simp [Work.failAfterWrite, post, Work.fail, Store.fail, clean]
  have flaw : ((w.mapPut p e).store.setFlaw (mapWord p) (some .uncorrectable)).flaw (mapWord p) = some .uncorrectable :=
    Store.flaw_setFlaw_some _ (mapWord_lt p) _
  have map : ((w.mapPut p e).store.setFlaw (mapWord p) (some .uncorrectable)).map = upd w.store.map p e := by
    simp [Work.mapPut, State.mapWritten, State.withMap, Store.setFlaw, mapWord_lt]
  rw [Work.writeMap_eq, failed, Work.mapReadBack, Work.readWord_uncorrectable flaw]
  generalize (w.mapPut p e).store.setFlaw (mapWord p) (some .uncorrectable) = x at flaw map
  have bad : x.readable (mapWord p) = false := by simp [Store.readable, flaw]
  have unread : State.readable { w.mapPut p e with store := x }.toState (mapWord p) = false := bad
  rw [unread, Bool.false_or]
  rcases Work.offer_cases { w.mapPut p e with store := x } (mapWord p) .uncorrectable .read with h | ⟨l, h⟩ <;> rw [h] <;>
    dsimp only <;> split
  · rename_i has
    exact ⟨⟨bad, (Mask.put_of_has has).symm, fun no => absurd (has.symm.trans no) (by simp), map, rfl, rfl, rfl, flaw, rfl, rfl, rfl⟩, rfl⟩
  · exact ⟨⟨bad, rfl, fun _ => rfl, map, rfl, rfl, rfl, flaw, rfl, rfl, rfl⟩, rfl⟩
  · rename_i has
    exact ⟨⟨bad, (Mask.put_of_has has).symm, fun _ => rfl, map, rfl, rfl, rfl, flaw, rfl, rfl, rfl⟩, rfl⟩
  · exact ⟨⟨bad, rfl, fun _ => rfl, map, rfl, rfl, rfl, flaw, rfl, rfl, rfl⟩, rfl⟩

theorem Work.writeMap_bad {w : Work} {p : Pocket} (hw : w.storeWf) (hp : w.post = [(mapWord p, .uncorrectable)]) (e : MapEntry) :
    State.MapFaulted w.toState (w.writeMap p e).toState p e ∧ (w.writeMap p e).quiet = w.quiet :=
  Work.writeMap_unread (Work.mapPut_flaw hw p e) hp

/-! ### REMAP and the repair of a map word (R38, R39) -/

/-- The work of an operation that is served with no more accesses to make. -/
def State.running (s : State) (found : Findings) (op : StoreOp) : Work :=
  { (Work.begin s).meet found with ctl := { s.ctl with current := some (Running.of op []) } }

theorem Work.onRun_of_current {w : Work} {r : Running} (h : w.ctl.current = some r) (f : Running → Running) :
    w.onRun f = { w with ctl := { w.ctl with current := some (f r) } } := by
  simp [Work.onRun, h]

/-- An operation of a map write whose read-back has been judged. -/
def Running.judged (op : StoreOp) (good : Bool) (e : MapEntry) : Running := { Running.of op [] with good := good, entry := e }

def Work.judged (w : Work) (op : StoreOp) (good : Bool) (e : MapEntry) : Work :=
  { w with ctl := { w.ctl with current := some (Running.judged op good e) } }

theorem exec_remapWriteEnd {s : State} {p : Pocket} {v : Work} (found : Findings) (hp : s.powered = true) (hs : s.serving (.remap p) [.writeMap])
    (hv : (s.running found (.remap p)).writeMap p ⟨false, 0, (s.ctl.mirror[p]).gen⟩ = v)
    (hc : v.ctl.current = some (Running.of (.remap p) [])) :
    let x := v.judged (.remap p) (v.mapGood p) MapEntry.none
    exec (.remapWriteEnd found) s = .next (Work.endOp (if v.mapGood p then (x.endMapFault p).respond .ok [] else x.respond .mapFault [])
      (Running.judged (.remap p) (v.mapGood p) MapEntry.none)).finish := by
  have e : exec (.remapWriteEnd found) s = execRemapWriteEnd found s := rfl
  have write : Work.plainAccess (s.running found (.remap p)) (Running.of (.remap p) []) .writeMap =
      v.judged (.remap p) (v.mapGood p) MapEntry.none := by
    subst hv
    exact Work.onRun_of_current hc _
  rw [e, execRemapWriteEnd, powered_endWhere_one hp hs rfl rfl write rfl rfl rfl]
  rfl

theorem exec_mapRepairEnd {s : State} {p : Pocket} {req : HostReq} {v : Work} (found : Findings) (hp : s.powered = true)
    (hs : s.serving (.mapRepair req p) [.writeMap]) (hv : (s.running found (.mapRepair req p)).writeMap p s.ctl.mirror[p] = v)
    (hc : v.ctl.current = some (Running.of (.mapRepair req p) [])) (hm : v.ctl.mirror[p] = s.ctl.mirror[p]) :
    let x := v.judged (.mapRepair req p) (v.mapGood p) s.ctl.mirror[p]
    exec (.mapRepairEnd found) s = .next (Work.endOp (if v.mapGood p then x.translated req p s.ctl.mirror[p] else x.respond .mapFault [])
      (Running.judged (.mapRepair req p) (v.mapGood p) s.ctl.mirror[p])).finish := by
  have e : exec (.mapRepairEnd found) s = execMapRepairEnd found s := rfl
  have write : Work.plainAccess (s.running found (.mapRepair req p)) (Running.of (.mapRepair req p) []) .writeMap =
      v.judged (.mapRepair req p) (v.mapGood p) s.ctl.mirror[p] := by
    subst hv
    exact (Work.onRun_of_current hc _).trans (congrArg (Work.judged _ _ _) hm)
  rw [e, execMapRepairEnd, powered_endWhere_one hp hs rfl rfl write rfl rfl rfl]
  rfl

/-- The map write of an operation in progress, read back without a failure. -/
theorem running_writeMap {s : State} (hw : s.storeWf) (op : StoreOp) (p : Pocket) (e : MapEntry) :
    (s.running noFailures op).writeMap p e = (s.running noFailures op).mapPut p e := Work.writeMap_good hw rfl e

theorem Work.endMapFault_of_has {w : Work} {p : Pocket} (h : w.ctl.mapFault.has p = true) :
    w.endMapFault p = { w.markPart .store with ctl := { w.ctl with mapFault := w.ctl.mapFault.put p false } } := if_pos h

theorem Work.endMapFault_respond_finish {w : Work} {p : Pocket} (ha : w.part = .active) (hq : w.quiet = true) (h : w.ctl.mapFault.has p = true)
    (b : Result) (bytes : List Byte) (r : Running) :
    (((w.endMapFault p).respond b bytes).endOp r).finish = State.replied (State.markedPart { w.storeFreed with
      ctl := { w.storeFreed.ctl with mapFault := w.ctl.mapFault.put p false } } .store) b bytes := by
  rw [Work.endMapFault_of_has h, Work.endOp_finish_of_quiet (by exact ha) (by exact hq)]
  rfl

theorem Work.judged_respond_finish {v : Work} (ha : v.part = .active) (hq : v.quiet = true) (op : StoreOp) (good : Bool) (e : MapEntry) (b : Result)
    (bytes : List Byte) (r : Running) : (((v.judged op good e).respond b bytes).endOp r).finish = v.storeFreed.replied b bytes := by
  rw [Work.endOp_finish_of_quiet (by exact ha) (by exact hq)]
  rfl

/-- A repaired map word: the request it served goes on with the entry of the mirror (R38). -/
theorem exec_mapRepairEnd_good {s : State} {p : Pocket} {req : HostReq} (hp : s.powered = true) (hw : s.storeWf)
    (hs : s.serving (.mapRepair req p) [.writeMap]) :
    exec (.mapRepairEnd noFailures) s = .next ((Work.translated (Work.begin { s.mapWritten p s.ctl.mirror[p] with
        ctl := { (s.mapWritten p s.ctl.mirror[p]).ctl with current := some (Running.judged (.mapRepair req p) true s.ctl.mirror[p]) } })
      req p s.ctl.mirror[p]).endOp (Running.judged (.mapRepair req p) true s.ctl.mirror[p])).finish := by
  have good : ((s.running noFailures (.mapRepair req p)).mapPut p s.ctl.mirror[p]).mapGood p = true := State.mapGood_mapPut hw _ _
  rw [exec_mapRepairEnd noFailures hp hs (running_writeMap hw _ p _) rfl (upd_self _ _ _)]
  dsimp only
  rw [good]
  rfl

/-- Settles O28. -/
theorem mapWordsAreRewritten : Obligations.MapWordsAreRewritten := by
  unfold Obligations.MapWordsAreRewritten
  intro p r s hp ha hw failing
  refine ⟨fun hs => ⟨fun hm => ?_, fun hm => ?_⟩, fun hs hm => ⟨fun hv ho => ?_, fun hv q a hr => ?_, fun q c hr hv hc => ?_, ?_⟩⟩
  · have good : ((s.running noFailures (.remap p)).mapPut p ⟨false, 0, (s.ctl.mirror[p]).gen⟩).mapGood p = true := State.mapGood_mapPut hw _ _
    rw [exec_remapWriteEnd noFailures hp hs (running_writeMap hw _ p _) rfl]
    dsimp only
    rw [good, if_pos rfl, Work.endMapFault_respond_finish (by exact ha) rfl (by exact hm)]
    rfl
  · obtain ⟨left, quiet⟩ := Work.writeMap_bad (w := s.running failing (.remap p)) hw rfl ⟨false, 0, (s.ctl.mirror[p]).gen⟩
    generalize hv : (s.running failing (.remap p)).writeMap p ⟨false, 0, (s.ctl.mirror[p]).gen⟩ = v at left quiet
    refine ⟨v.storeFreed.replied .mapFault [], (exec_remapWriteEnd failing hp hs hv left.current).trans (congrArg Host.Outcome.next ?_), ?_⟩
    · rw [left.bad]
      exact Work.judged_respond_finish (left.part.trans ha) quiet _ _ _ _ _ _
    · exact ⟨left.fault.trans (Mask.put_of_has hm), rfl, left.mirror, left.map.trans
        (Store.setFlaw_map (s.withMap p ⟨false, 0, (s.ctl.mirror[p]).gen⟩).store _ _).symm⟩
  · rw [exec_mapRepairEnd_good hp hw hs, Work.translated_unfound (by exact ha) (by exact hm) ho (.inl hv)]
    exact congrArg Host.Outcome.next (Work.endOp_finish_of_quiet (by exact ha) rfl _)
  · subst hr
    rw [exec_mapRepairEnd_good hp hw hs, Work.translated_open (by exact ha) (by exact hm), hv, if_neg (by simp), Work.takeOpen,
      nextGeneration_eq, openHeat, clampTo_zero]
    exact congrArg Host.Outcome.next (Work.endOp_finish_of_quiet (by exact ha) rfl _)
  · subst hr
    rw [exec_mapRepairEnd_good hp hw hs, Work.translated_live (by exact ha) (by exact hm) hv (by exact hc)
      (fun _ _ => HostReq.noConfusion) (fun _ => rfl)]
    exact congrArg Host.Outcome.next (Work.endOp_finish_of_quiet (by exact ha) rfl _)
  · obtain ⟨left, quiet⟩ := Work.writeMap_bad (w := s.running failing (.mapRepair r p)) hw rfl s.ctl.mirror[p]
    generalize hv : (s.running failing (.mapRepair r p)).writeMap p s.ctl.mirror[p] = v at left quiet
    have entry : v.ctl.mirror[p] = s.ctl.mirror[p] := by rw [left.mirror, upd_self]
    refine ⟨v.storeFreed.replied .mapFault [], (exec_mapRepairEnd failing hp hs hv left.current entry).trans (congrArg Host.Outcome.next ?_), ?_⟩
    · rw [left.bad]
      exact Work.judged_respond_finish (left.part.trans ha) quiet _ _ _ _ _ _
    · exact ⟨left.fault, left.told hm, rfl, left.ctxs⟩

/-! ### Retirement (R39, R43, R44) -/

theorem State.reliefCandidate_of_nonePinned {s : State} (h : s.nonePinned) : s.reliefCandidate = none := by
  unfold State.reliefCandidate
  rw [List.findSome?_eq_none_iff]
  intro p _
  cases hc : s.ctx p with
  | none => simp
  | some c => simp [h p c hc]

/-- The pockets before `q` in the order of `allPockets` are those below it. -/
theorem allPockets_split (q : Pocket) : ∃ l r, allPockets = l ++ q :: r ∧ ∀ x ∈ l, x < q := by
  obtain ⟨l, r, h⟩ := List.append_of_mem (List.mem_finRange q)
  refine ⟨l, r, h, fun x hx => ?_⟩
  have sorted : (l ++ q :: r).Pairwise (· < ·) := h ▸ List.pairwise_lt_finRange 32
  exact (List.pairwise_append.1 sorted).2.2 x hx q (List.mem_cons_self ..)

/-- The pinned record of lowest pocket that has no move queued is relieved (R43). -/
theorem State.reliefCandidate_of_lowest {s : State} {q : Pocket} {c : Context} (hc : s.ctx q = some c) (hp : c.pinned = true)
    (hq : s.ctl.queue.any (·.isMoveOf q) = false) (lowest : ∀ r d, r < q → s.ctx r = some d → d.pinned = false) :
    s.reliefCandidate = some (q, c.frame) := by
  obtain ⟨l, r, split, below⟩ := allPockets_split q
  unfold State.reliefCandidate
  rw [split, List.findSome?_append, List.findSome?_eq_none_iff.2, Option.none_or, List.findSome?_cons]
  · simp [hc, hp, hq]
  · intro x hx
    cases hd : s.ctx x with
    | none => simp
    | some d => simp [lowest x d (below x hx) hd]

theorem Work.freeFrame_unpinned {w : Work} (ha : w.part = .active) (h : w.nonePinned) (f : Nat) :
    w.freeFrame f = { w with ctl := { w.ctl with free := w.ctl.free ++ [f] } } := by
  unfold Work.freeFrame
  dsimp only
  rw [if_pos (.inl ha), State.reliefCandidate_of_nonePinned (by exact h)]

theorem Work.freeFrame_relieves {w : Work} {q : Pocket} {c : Context} (ha : w.part = .active) (hc : w.ctx q = some c) (hp : c.pinned = true)
    (hq : w.ctl.queue.any (·.isMoveOf q) = false) (lowest : ∀ r d, r < q → w.ctx r = some d → d.pinned = false) (f : Nat) :
    w.freeFrame f = { w with ctl := { w.ctl with free := w.ctl.free ++ [f], queue := w.ctl.queue ++ [.move q c.frame false] } } := by
  unfold Work.freeFrame
  dsimp only
  rw [if_pos (.inl ha), State.reliefCandidate_of_lowest (by exact hc) hp (by exact hq) (by exact lowest)]
  rfl

/-- The first access of a retirement (R44). -/
theorem exec_retireMapWriteEnd {s : State} {op : StoreOp} {p : Pocket} {f : Nat} {pinned host : Bool} (ho : op = .retire p f pinned host)
    (hp : s.powered = true) (hs : s.serving op [.retireMap, .retireHeader]) :
    exec (.retireMapWriteEnd noFailures) s = .next
      ((Work.begin (s.begins s.ctl.queue (Running.of op [.retireHeader]))).retireMap p f pinned).finish := by
  subst ho
  have e : exec (.retireMapWriteEnd noFailures) s = execRetireMapWriteEnd noFailures s := rfl
  have serving : (Work.begin s).ctl.current = some (Running.of (.retire p f pinned host) [.retireMap, .retireHeader]) := hs
  rw [e, execRetireMapWriteEnd, powered_on hp, serving]
  dsimp only
  rw [if_pos (by rfl), Work.meet_clean, Work.access_plain serving rfl rfl]
  rfl

/-- The map entry of a retirement written over a clean word, read back clean, a map fault of the pocket ended (R39). -/
def State.unmapped (s : State) (p : Pocket) : State :=
  let t := s.withMap p ⟨false, 0, (s.ctl.mirror[p]).gen⟩
  if s.ctl.mapFault.has p then State.markedPart { t with ctl := { t.ctl with mapFault := s.ctl.mapFault.put p false } } .store else t

theorem Work.retireMap_clean {s : State} {p : Pocket} (h : s.store.flaw (mapWord p) = none) (f : Nat) (pinned : Bool) :
    (Work.begin s).retireMap p f pinned =
      if pinned then (Work.begin (s.unmapped p)).quarantineFrame f else (Work.begin (s.unmapped p)).freeFrame f := by
  have clean : (Work.begin s).writeMap p ⟨false, 0, (s.ctl.mirror[p]).gen⟩ = Work.begin (s.withMap p ⟨false, 0, (s.ctl.mirror[p]).gen⟩) :=
    Work.writeMap_clean h rfl _
  have good : (Work.begin (s.withMap p ⟨false, 0, (s.ctl.mirror[p]).gen⟩)).mapGood p = true := State.readable_clean h
  have unmapped : (Work.begin (s.withMap p ⟨false, 0, (s.ctl.mirror[p]).gen⟩)).endMapFault p = Work.begin (s.unmapped p) := by
    unfold Work.endMapFault State.unmapped
    by_cases hm : s.ctl.mapFault.has p = true
    · rw [if_pos hm, if_pos (by exact hm)]
      rfl
    · rw [if_neg hm, if_neg (by exact hm)]
  unfold Work.retireMap
  dsimp only [Work.begin_ctl]
  rw [clean, good, if_pos rfl, unmapped]

theorem State.unmapped_nonePinned {s : State} (h : s.nonePinned) (p : Pocket) : (s.unmapped p).nonePinned := by
  unfold State.unmapped
  dsimp only
  split <;> exact h

/-- Ending the map fault touches nothing but the fault and the STORE mark. -/
theorem State.unmapped_keeps (s : State) (p : Pocket) : (s.unmapped p).part = s.part ∧ (s.unmapped p).ctxs = s.ctxs ∧
    (s.unmapped p).ctl.queue = s.ctl.queue ∧ (s.unmapped p).ctl.free = s.ctl.free ∧ (s.unmapped p).ctl.quarantine = s.ctl.quarantine ∧
    (s.unmapped p).ctl.mirror[p] = ⟨false, 0, (s.ctl.mirror[p]).gen⟩ := by
  unfold State.unmapped
  dsimp only
  split <;> exact ⟨rfl, rfl, rfl, rfl, rfl, upd_self _ _ _⟩

/-- The header of a frame that is freed or quarantined, its old one being readable (R35). -/
theorem Work.writeHeader_withdrawn {s : State} {f : Nat} (h : s.store.flaw (frameWord s.geometry f 0) = none) (st : FrameState) :
    (Work.begin s).writeHeader f (s.withdrawnHeader f st) = Work.begin (s.withFrame f { s.store.frame f with
      header := { (s.store.frame f).header with state := st, writeOpen := false, saved := false } }) := by
  have clean : (Work.begin (s.withFrame f { s.store.frame f with header := s.withdrawnHeader f st })).store.flaw (frameWord s.geometry f 0) = none :=
    (Store.setFrame_flaw _ _ _ _).trans h
  unfold Work.writeHeader
  refine (Work.wrote_clean clean).trans ?_
  rw [State.withdrawnHeader, if_pos (.inr (State.readable_clean h))]

/-- Frame `f` added to a quarantine set, or to a free list, and taken over (R46). -/
def State.withQuarantine (f : Nat) (s : State) (x : BitVec 48) : State :=
  State.markedPart { s with ctl := { s.ctl with quarantine := x ||| BitVec.twoPow 48 f } } .store

def State.withFreed (f : Nat) (s : State) (l : List Nat) : State := { s with ctl := { s.ctl with free := l ++ [f] } }

/-- Settles O27. -/
theorem retirementFreesTheFrame : Obligations.RetirementFreesTheFrame := by
  unfold Obligations.RetirementFreesTheFrame
  intro p f pinned host s hp ha
  refine ⟨fun hs hf hn => ?_, fun hs hf q c hc pin hq lowest => ?_, fun hs hf => ?_⟩
  · rw [exec_retireMapWriteEnd rfl hp hs, Work.retireMap_clean (by exact hf)]
    refine congrArg Host.Outcome.next ?_
    obtain ⟨part, -, -, free, quarantine, -⟩ := State.unmapped_keeps (s.begins s.ctl.queue (Running.of (.retire p f pinned host) [.retireHeader])) p
    cases pinned with
    | true =>
      rw [if_pos rfl, Work.finish_of_quiet _ rfl]
      exact congrArg (State.withQuarantine f _) quarantine
    | false =>
      rw [if_neg Bool.false_ne_true, if_neg Bool.false_ne_true, Work.freeFrame_unpinned (part.trans ha) (State.unmapped_nonePinned (by exact hn) p),
        Work.finish_of_quiet _ rfl]
      exact congrArg (State.withFreed f _) free
  · rw [exec_retireMapWriteEnd rfl hp hs, Work.retireMap_clean (by exact hf), if_neg Bool.false_ne_true]
    obtain ⟨part, ctxs, queue, free, -, mirror⟩ := State.unmapped_keeps (s.begins s.ctl.queue (Running.of (.retire p f false host) [.retireHeader])) p
    generalize (s.begins s.ctl.queue (Running.of (.retire p f false host) [.retireHeader])).unmapped p = t at part ctxs queue free mirror
    have ctx (r : Pocket) : t.ctx r = s.ctx r := congrArg (·[r]) ctxs
    rw [Work.freeFrame_relieves (w := Work.begin t) (part.trans ha) ((ctx q).trans hc) pin (by rw [Work.begin_ctl, queue]; exact hq)
      (fun r d hr hd => lowest r d hr ((ctx r).symm.trans hd))]
    exact ⟨_, congrArg Host.Outcome.next (Work.finish_of_quiet _ rfl), congrArg (· ++ [f]) free, congrArg (· ++ _) queue, mirror⟩
  · have e : exec (.retireOperationEnd noFailures) s = execRetireOperationEnd noFailures s := rfl
    have write : Work.plainAccess (s.running noFailures (.retire p f pinned host)) (Running.of (.retire p f pinned host) []) .retireHeader =
        (s.running noFailures (.retire p f pinned host)).writeHeader f
          ((s.running noFailures (.retire p f pinned host)).withdrawnHeader f (if pinned then .quarantined else .free)) := rfl
    rw [e, execRetireOperationEnd, powered_endWhere_one hp hs rfl rfl (write.trans (Work.writeHeader_withdrawn (by exact hf) _)) rfl rfl rfl]
    refine congrArg Host.Outcome.next ?_
    cases host with
    | true => exact Work.endOp_finish_of_quiet (by exact ha) rfl _
    | false => exact Work.endOp_finish_of_quiet (by exact ha) rfl _

end Sys2Proof.Machine
end
section
/-! SUPPORT. The settings write and FORMAT in COMMISSION: what each access of FORMAT leaves, and what all of them do. -/

namespace Sys2Proof.Machine

/-! ### Runs of steps that each set one part -/

/-- A run of steps each of which sets `v` to `x` where it `hits` and leaves it elsewhere. -/
theorem foldl_hits {σ α β : Type} {f : σ → α → σ} {v : σ → β} {x : β} {hits : α → Bool} {I : σ → Prop} (keeps : ∀ s a, I s → I (f s a))
    (h : ∀ s a, I s → v (f s a) = if hits a then x else v s) :
    ∀ (l : List α) (s : σ), I s → v (l.foldl f s) = if l.any hits then x else v s
  | [], _, _ => rfl
  | a :: l, s, hs => by
    rw [List.foldl_cons, foldl_hits keeps h l _ (keeps s a hs), h s a hs, List.any_cons]
    cases l.any hits <;> cases hits a <;> rfl

/-! ### The accesses of FORMAT (R193) -/

/-- A store with the words of frame `f` made clean. -/
def Store.frameCleaned (g : Geometry) (f : Nat) (x : Store) : Store :=
  (List.range (frameSize g)).foldl (fun x k => x.setFlaw (frameWord g f k) none) x

/-- What one access of FORMAT makes of the state. -/
def State.formatted (g : Geometry) (n : Nat) (s : State) (a : Access) : State :=
  match a with
  | .formatFirst => { s with store := Store.setFlaw { s.store with format := ⟨false, g, n⟩ } 0 none }
  | .formatSettings k =>
    { s with store := Store.setFlaw { s.store with settings := s.store.settings.withWord Settings.default k } k none
             ctl := { s.ctl with settings := s.ctl.settings.withWord Settings.default k } }
  | .formatMark =>
    { s with store := Store.setFlaw { s.store with mark := ⟨false, 0, 0⟩ } markWord none, sup := { s.sup with mark := ⟨false, 0, 0⟩ } }
  | .formatMap p => s.mapWritten p MapEntry.none
  | .formatFrame f => { s with store := (s.store.setFrame f Frame.blank).frameCleaned g f }
  | .formatLast => { s with store := Store.setFlaw { s.store with format := ⟨true, g, n⟩ } 0 none, ctl := { s.ctl with format := ⟨true, g, n⟩ } }
  | _ => s

/-- The work with its state replaced. -/
def Work.over (w : Work) (t : State) : Work := ⟨t, w.gone, w.anyGone, w.drop, w.room, w.serve, w.grant, w.post⟩

theorem foldl_wrote (g : Geometry) (f : Nat) : ∀ (l : List Nat) (w : Work), l.foldl (fun w k => w.wrote (frameWord g f k)) w =
    { w with store := l.foldl (fun x k => x.setFlaw (frameWord g f k) none) w.store }
  | [], _ => rfl
  | _ :: l, _ => foldl_wrote g f l _

theorem Work.plainAccess_formatted {w : Work} (hw : w.storeWf) (hp : w.post = []) {g : Geometry} {n : Nat} {r : Running} (ho : r.op = .format g n)
    {a : Access} (ha : a ∈ formatTodo g) : w.plainAccess r a = w.over (w.toState.formatted g n a) := by
  cases a <;> simp [formatTodo] at ha <;> simp only [Work.plainAccess, ho]
  case formatMap p =>
    have good := State.mapGood_mapPut hw p MapEntry.none
    rw [Work.formatMapWord, Work.writeMap_good hw hp]
    exact if_pos good
  case formatFrame f => exact foldl_wrote g f _ _
  all_goals rfl

theorem State.formatted_wf {s : State} (hs : s.storeWf) (g : Geometry) (n : Nat) (a : Access) : (s.formatted g n a).storeWf := by
  have frames (f : Nat) : ∀ (l : List Nat) {x : Store}, x.wf = true → (l.foldl (fun x k => x.setFlaw (frameWord g f k) none) x).wf = true := by
    intro l
    induction l with
    | nil => exact id
    | cons k l ih => exact fun h => ih (Store.setFlaw_wf h _ _)
  have put (x : Store) (k : Nat) (h : x.flaws = s.store.flaws) : (x.setFlaw k none).wf = true := Store.setFlaw_wf (Store.wf_of_flaws h hs) _ _
  cases a with
  | formatFrame f => exact frames f _ (Store.setFrame_wf hs _ _)
  | formatFirst => exact put _ _ rfl
  | formatSettings k => exact put _ _ rfl
  | formatMark => exact put _ _ rfl
  | formatMap p => exact put _ _ rfl
  | formatLast => exact put _ _ rfl
  | _ => exact hs

/-- The state with the operation in progress replaced. -/
def State.withCurrent (s : State) (x : Option Running) : State := { s with ctl := { s.ctl with current := x } }

theorem State.formatted_current (s : State) (g : Geometry) (n : Nat) (a : Access) (x : Option Running) :
    (s.withCurrent x).formatted g n a = (s.formatted g n a).withCurrent x := by cases a <;> rfl

theorem State.withCurrent_self (s : State) : s.withCurrent s.ctl.current = s := rfl

theorem foldl_formatted_current (g : Geometry) (n : Nat) (x y : Option Running) : ∀ (l : List Access) (s : State),
    (l.foldl (State.formatted g n) (s.withCurrent x)).withCurrent y = (l.foldl (State.formatted g n) s).withCurrent y
  | [], _ => rfl
  | a :: l, s => by rw [List.foldl_cons, List.foldl_cons, State.formatted_current, foldl_formatted_current g n x y l]

/-- FORMAT runs through its accesses. -/
theorem Work.runPlain_format {g : Geometry} {n : Nat} (l : List Access) : ∀ (m : Nat) (w : Work), (∀ a ∈ l, a ∈ formatTodo g) → l.length ≤ m →
    w.storeWf → w.post = [] → w.ctl.current = some (Running.of (.format g n) l) → Work.runPlain m w =
      w.over ((l.foldl (State.formatted g n) w.toState).withCurrent (some (Running.of (.format g n) []))) := by
  induction l with
  | nil =>
    intro m w _ _ _ _ hc
    rw [Work.runPlain_done m hc rfl, ← hc]
    rfl
  | cons a l ih =>
    intro m w hl hm hw hp hc
    obtain ⟨m, rfl⟩ := Nat.exists_eq_succ_of_ne_zero (show m ≠ 0 from fun h => by simp [h] at hm)
    have access : w.access = w.over ((w.toState.formatted g n a).withCurrent (some (Running.of (.format g n) l))) := by
      rw [Work.access_plain hc rfl rfl]
      exact (Work.plainAccess_formatted (by exact hw) (by exact hp) rfl (hl a (List.mem_cons_self ..))).trans
        (congrArg w.over (State.formatted_current _ _ _ _ _))
    rw [Work.runPlain_step m hc rfl rfl, access]
    have wf : ((w.toState.formatted g n a).withCurrent (some (Running.of (.format g n) l))).storeWf := State.formatted_wf hw g n a
    exact (ih m (w.over _) (fun b hb => hl b (List.mem_cons_of_mem _ hb)) (by simpa using hm) wf hp rfl).trans
      (congrArg w.over (foldl_formatted_current g n _ _ l _))

/-! ### What each access sets -/

/-- The words of the store that an access of FORMAT writes. -/
def Access.writes (g : Geometry) (k : Nat) (a : Access) : Bool :=
  match a with
  | .formatFirst => k == 0
  | .formatSettings j => k == j
  | .formatMark => k == markWord
  | .formatMap p => k == mapWord p
  | .formatFrame f => (List.range (frameSize g)).any fun j => k == frameWord g f j
  | .formatLast => k == 0
  | _ => false

theorem Store.setFlaw_clean {s : Store} (hs : s.wf = true) {k : Nat} (hk : k < Config.storeWords) (j : Nat) :
    (s.setFlaw j none).flaw k = if (k == j) = true then none else s.flaw k := by
  by_cases h : k = j
  · subst h
    rw [Store.flaw_setFlaw_self hs hk, if_pos (by simp)]
  · rw [Store.flaw_setFlaw_other _ h, if_neg (by simpa using h)]

theorem State.formatted_flaw {s : State} (hs : s.storeWf) {k : Nat} (hk : k < Config.storeWords) (g : Geometry) (n : Nat) (a : Access) :
    (s.formatted g n a).store.flaw k = if a.writes g k then none else s.store.flaw k := by
  have put (x : Store) (j : Nat) (h : x.flaws = s.store.flaws) :
      (x.setFlaw j none).flaw k = if (k == j) = true then none else s.store.flaw k := by
    rw [Store.setFlaw_clean (Store.wf_of_flaws h hs) hk, show x.flaw k = s.store.flaw k from congrArg (List.lookup k) h]
  cases a with
  | formatFirst => exact put _ _ rfl
  | formatSettings j => exact put _ _ rfl
  | formatMark => exact put _ _ rfl
  | formatMap p => exact put _ _ rfl
  | formatLast => exact put _ _ rfl
  | formatFrame f =>
    refine (foldl_hits (I := fun x : Store => x.wf = true) (v := fun x => x.flaw k) (x := none) (hits := fun j => k == frameWord g f j)
      (fun x j h => Store.setFlaw_wf h _ _) (fun x j h => Store.setFlaw_clean h hk _) _ _ (Store.setFrame_wf hs _ _)).trans ?_
    rw [Store.setFrame_flaw]
    rfl
  | _ => rfl

theorem Settings.withWord_get (held src : Settings) (w : Nat) (i : Fin 96) :
    (held.withWord src w)[i] = if itemWord i.val = w then src[i] else held[i] := by
  simp [Settings.withWord]

/-- The settings word that an access of FORMAT writes. -/
def Access.setsItem (i : Fin 96) (a : Access) : Bool :=
  match a with
  | .formatSettings j => itemWord i.val == j
  | _ => false

theorem Store.setFlaw_settings (s : Store) (n : Nat) (v : Option Flaw) : (s.setFlaw n v).settings = s.settings := by
  unfold Store.setFlaw
  split <;> rfl

theorem Store.setFlaw_mark (s : Store) (n : Nat) (v : Option Flaw) : (s.setFlaw n v).mark = s.mark := by
  unfold Store.setFlaw
  split <;> rfl

theorem Store.setFlaw_format (s : Store) (n : Nat) (v : Option Flaw) : (s.setFlaw n v).format = s.format := by
  unfold Store.setFlaw
  split <;> rfl

theorem Store.setFlaw_frame (s : Store) (n : Nat) (v : Option Flaw) (f : Nat) : (s.setFlaw n v).frame f = s.frame f := by
  unfold Store.setFlaw
  split <;> rfl

/-- Cleaning the words of a frame leaves all but the conditions. -/
theorem Store.frameCleaned_keeps {β : Type} (v : Store → β) (h : ∀ (s : Store) n, v (s.setFlaw n none) = v s) (g : Geometry) (f : Nat) (s : Store) :
    v (s.frameCleaned g f) = v s := by
  unfold Store.frameCleaned
  generalize List.range (frameSize g) = l
  induction l generalizing s with
  | nil => rfl
  | cons k l ih => exact (ih _).trans (h s _)

theorem Store.setFrame_settings (s : Store) (f : Nat) (x : Frame) : (s.setFrame f x).settings = s.settings := by
  unfold Store.setFrame
  split <;> rfl

theorem Store.setFrame_mark (s : Store) (f : Nat) (x : Frame) : (s.setFrame f x).mark = s.mark := by
  unfold Store.setFrame
  split <;> rfl

theorem Store.setFrame_map (s : Store) (f : Nat) (x : Frame) : (s.setFrame f x).map = s.map := by
  unfold Store.setFrame
  split <;> rfl

theorem State.formatted_settings (s : State) (g : Geometry) (n : Nat) (i : Fin 96) (a : Access) :
    (s.formatted g n a).store.settings[i] = if a.setsItem i then Settings.default[i] else s.store.settings[i] := by
  cases a with
  | formatFrame f =>
    exact congrArg (·[i]) ((Store.frameCleaned_keeps Store.settings (fun _ _ => Store.setFlaw_settings _ _ _) _ _ _).trans (Store.setFrame_settings _ _ _))
  | formatSettings j =>
    refine (congrArg (·[i]) (Store.setFlaw_settings _ _ _)).trans ((Settings.withWord_get _ _ _ _).trans ?_)
    simp [Access.setsItem]
  | formatFirst => exact congrArg (·[i]) (Store.setFlaw_settings _ _ _)
  | formatMark => exact congrArg (·[i]) (Store.setFlaw_settings _ _ _)
  | formatMap p => exact congrArg (·[i]) (Store.setFlaw_settings _ _ _)
  | formatLast => exact congrArg (·[i]) (Store.setFlaw_settings _ _ _)
  | _ => rfl

theorem State.formatted_copy (s : State) (g : Geometry) (n : Nat) (i : Fin 96) (a : Access) :
    (s.formatted g n a).ctl.settings[i] = if a.setsItem i then Settings.default[i] else s.ctl.settings[i] := by
  cases a with
  | formatSettings j =>
    refine (Settings.withWord_get _ _ _ _).trans ?_
    simp [Access.setsItem]
  | _ => rfl

theorem State.formatted_mark (s : State) (g : Geometry) (n : Nat) (a : Access) :
    (s.formatted g n a).store.mark = if a == .formatMark then ⟨false, 0, 0⟩ else s.store.mark := by
  cases a with
  | formatFrame f => exact (Store.frameCleaned_keeps Store.mark (fun _ _ => Store.setFlaw_mark _ _ _) _ _ _).trans (Store.setFrame_mark _ _ _)
  | formatSettings j => exact Store.setFlaw_mark _ _ _
  | formatFirst => exact Store.setFlaw_mark _ _ _
  | formatMark => exact Store.setFlaw_mark _ _ _
  | formatMap p => exact Store.setFlaw_mark _ _ _
  | formatLast => exact Store.setFlaw_mark _ _ _
  | _ => rfl

theorem State.formatted_supMark (s : State) (g : Geometry) (n : Nat) (a : Access) :
    (s.formatted g n a).sup.mark = if a == .formatMark then ⟨false, 0, 0⟩ else s.sup.mark := by
  cases a <;> rfl

theorem State.formatted_map (s : State) (g : Geometry) (n : Nat) (p : Pocket) (a : Access) :
    (s.formatted g n a).store.map[p] = if a == .formatMap p then ⟨false, 0, 0⟩ else s.store.map[p] := by
  cases a with
  | formatFrame f =>
    exact congrArg (·[p]) ((Store.frameCleaned_keeps Store.map (fun _ _ => Store.setFlaw_map _ _ _) _ _ _).trans (Store.setFrame_map _ _ _))
  | formatMap q =>
    refine (congrArg (·[p]) (Store.setFlaw_map (s.withMap q MapEntry.none).store _ _)).trans ?_
    by_cases e : p = q
    · subst e
      rw [if_pos (by simp)]
      exact upd_self _ _ _
    · rw [if_neg (by simpa using Ne.symm e)]
      exact upd_other _ _ e
  | formatSettings j => exact congrArg (·[p]) (Store.setFlaw_map _ _ _)
  | formatFirst => exact congrArg (·[p]) (Store.setFlaw_map _ _ _)
  | formatMark => exact congrArg (·[p]) (Store.setFlaw_map _ _ _)
  | formatLast => exact congrArg (·[p]) (Store.setFlaw_map _ _ _)
  | _ => rfl

theorem State.formatted_frame (s : State) {f : Nat} (hf : f < 48) (g : Geometry) (n : Nat) (a : Access) :
    (s.formatted g n a).store.frame f = if a == .formatFrame f then Frame.blank else s.store.frame f := by
  cases a with
  | formatFrame k =>
    refine (Store.frameCleaned_keeps (Store.frame · f) (fun _ _ => Store.setFlaw_frame _ _ _ _) _ _ _).trans ?_
    by_cases e : f = k
    · subst e
      rw [Store.frame_setFrame _ _ _ _ hf, if_pos rfl, if_pos (by simp)]
    · rw [if_neg (by simpa using Ne.symm e)]
      by_cases hk : k < 48
      · rw [Store.frame_setFrame _ _ _ _ hk, if_neg e]
      · simp [Store.setFrame, hk]
  | formatMap p => exact Store.setFlaw_frame (s.withMap p MapEntry.none).store _ _ f
  | formatSettings j => exact Store.setFlaw_frame _ _ _ f
  | formatFirst => exact Store.setFlaw_frame _ _ _ f
  | formatMark => exact Store.setFlaw_frame _ _ _ f
  | formatLast => exact Store.setFlaw_frame _ _ _ f
  | _ => rfl

/-! ### What all of them leave -/

/-- The state `s` with all that FORMAT writes taken from `x`. -/
def State.offFormat (x s : State) : State :=
  { s with store := x.store, sup := { s.sup with mark := x.sup.mark }
           ctl := { s.ctl with format := x.ctl.format, settings := x.ctl.settings, mirror := x.ctl.mirror } }

theorem State.formatted_offFormat (x s : State) (g : Geometry) (n : Nat) (a : Access) : State.offFormat x (s.formatted g n a) = State.offFormat x s := by
  cases a <;> simp only [State.offFormat, State.formatted, State.mapWritten, State.withMap]

/-- What FORMAT does not write stands in two states that agree but for what it writes. -/
theorem State.kept_of_offFormat {x s t : State} (h : State.offFormat x s = State.offFormat x t) : s.part = t.part ∧ s.port = t.port ∧
    s.events = t.events ∧ s.backup = t.backup ∧ s.ctl.loaded = t.ctl.loaded ∧ s.ctxs = t.ctxs ∧ s.link = t.link ∧ s.arb = t.arb :=
  ⟨(congrArg State.part h :), (congrArg State.port h :), (congrArg State.events h :), (congrArg State.backup h :),
    (congrArg (fun t : State => t.ctl.loaded) h :), (congrArg State.ctxs h :), (congrArg State.link h :), (congrArg State.arb h :)⟩

/-- The state once every access of FORMAT has been made. -/
def State.formattedAll (s : State) (g : Geometry) (n : Nat) : State := (formatTodo g).foldl (State.formatted g n) s

theorem State.formattedAll_offFormat (x s : State) (g : Geometry) (n : Nat) : State.offFormat x (s.formattedAll g n) = State.offFormat x s := by
  unfold State.formattedAll
  generalize formatTodo g = l
  induction l generalizing s with
  | nil => rfl
  | cons a l ih => exact (ih _).trans (State.formatted_offFormat x s g n a)

theorem State.formattedAll_wf {s : State} (hs : s.storeWf) (g : Geometry) (n : Nat) : (s.formattedAll g n).storeWf := by
  unfold State.formattedAll
  generalize formatTodo g = l
  induction l generalizing s with
  | nil => exact hs
  | cons a l ih => exact ih (State.formatted_wf hs g n a)

/-- What some access of FORMAT sets, and the others leave, is set when all have been made. -/
theorem State.formattedAll_hits {β : Type} {v : State → β} {x : β} {hits : Access → Bool} {s : State} (hs : s.storeWf) {g : Geometry} {n : Nat}
    (h : ∀ s a, State.storeWf s → v (s.formatted g n a) = if hits a then x else v s) (a : Access) (ha : a ∈ formatTodo g) (hit : hits a = true) :
    v (s.formattedAll g n) = x := by
  refine (foldl_hits (I := State.storeWf) (fun s a hs => State.formatted_wf hs g n a) h _ _ hs).trans (if_pos ?_)
  exact List.any_eq_true.2 ⟨a, ha, hit⟩

theorem itemWord_bounds (i : Nat) : 1 ≤ itemWord i ∧ itemWord i ≤ 12 := by
  unfold itemWord
  split_ifs <;> decide

theorem formatSettings_mem (g : Geometry) {k : Nat} (h : 1 ≤ k ∧ k ≤ 12) : Access.formatSettings k ∈ formatTodo g := by
  obtain ⟨low, high⟩ := h
  simp only [formatTodo, List.cons_append, List.append_assoc, List.mem_cons, List.mem_append, List.mem_map, List.mem_range]
  exact .inr (.inl ⟨k - 1, by omega, by rw [Nat.sub_add_cancel low]⟩)

theorem formatMark_mem (g : Geometry) : Access.formatMark ∈ formatTodo g := by simp [formatTodo]

theorem formatMap_mem (g : Geometry) (p : Pocket) : Access.formatMap p ∈ formatTodo g := by simp [formatTodo, allPockets]

theorem formatFrame_mem {g : Geometry} {f : Nat} (h : f < frameCount g) : Access.formatFrame f ∈ formatTodo g := by simp [formatTodo, h]

/-- FORMAT writes every word of the store. -/
theorem formatTodo_writes (g : Geometry) {k : Nat} (hk : k < Config.storeWords) : ∃ a ∈ formatTodo g, a.writes g k = true := by
  unfold Config.storeWords at hk
  have frames (size count : Nat) (hs : frameSize g = size) (hc : frameCount g = count) (low : 46 ≤ k) (pos : 0 < size) (high : (k - 46) / size < count) :
      ∃ a ∈ formatTodo g, a.writes g k = true := by
    refine ⟨.formatFrame ((k - 46) / size), formatFrame_mem (hc ▸ high), ?_⟩
    simp only [Access.writes, List.any_eq_true, List.mem_range, beq_iff_eq, frameWord, hs]
    refine ⟨(k - 46) % size, Nat.mod_lt _ pos, ?_⟩
    have := Nat.div_add_mod (k - 46) size
    omega
  rcases Nat.lt_or_ge k 46 with low | low
  · rcases Nat.lt_or_ge k 14 with head | head
    · rcases Nat.eq_zero_or_pos k with rfl | pos
      · exact ⟨.formatFirst, by simp [formatTodo], rfl⟩
      · rcases Nat.lt_or_ge k 13 with set | mark
        · exact ⟨.formatSettings k, formatSettings_mem g ⟨pos, by omega⟩, by simp [Access.writes]⟩
        · exact ⟨.formatMark, formatMark_mem g, by simp [Access.writes, markWord]; omega⟩
    · refine ⟨.formatMap ⟨k - 14, by omega⟩, formatMap_mem g _, ?_⟩
      simp only [Access.writes, mapWord, beq_iff_eq]
      omega
  · cases g with
    | standard => exact frames 16 24 rfl rfl low (by omega) (by omega)
    | compact => exact frames 8 48 rfl rfl low (by omega) (by omega)

/-- A store every word of which reads clean holds no condition. -/
theorem Store.flaws_of_clean {s : Store} (hs : s.wf = true) (h : ∀ k, k < Config.storeWords → s.flaw k = none) : s.flaws = [] := by
  cases hl : s.flaws with
  | nil => rfl
  | cons x l =>
    have within := (Store.wf_iff s).1 hs
    have clean := h x.1 (within.2 x (by simp [hl]))
    simp [Store.flaw, hl] at clean

/-- What FORMAT makes of the store, the copies and the mark (R193). -/
structure State.Blank (t : State) (g : Geometry) (n : Nat) : Prop where
  format : t.store.format = ⟨true, g, n⟩
  formatCopy : t.ctl.format = ⟨true, g, n⟩
  settings : t.store.settings = Settings.default
  copy : t.ctl.settings = Settings.default
  mark : t.store.mark = ⟨false, 0, 0⟩
  markCopy : t.sup.mark = ⟨false, 0, 0⟩
  map : ∀ p : Pocket, t.store.map[p] = ⟨false, 0, 0⟩
  frames : ∀ f, f < frameCount g → t.store.frame f = Frame.blank
  flaws : t.store.flaws = []

theorem frameCount_le (g : Geometry) : frameCount g ≤ 48 := by cases g <;> decide

theorem State.formattedAll_blank {s : State} (hs : s.storeWf) (g : Geometry) (n : Nat) : (s.formattedAll g n).Blank g n := by
  have last : s.formattedAll g n = State.formatted g n ((.formatFirst :: ((List.range 12).map fun k => Access.formatSettings (k + 1)) ++
      .formatMark :: allPockets.map Access.formatMap ++ (List.range (frameCount g)).map Access.formatFrame).foldl (State.formatted g n) s) .formatLast :=
    List.foldl_concat ..
  have item (i : Fin 96) : Access.formatSettings (itemWord i.val) ∈ formatTodo g := formatSettings_mem g (itemWord_bounds i.val)
  refine ⟨?_, ?_, ?_, ?_, ?_, ?_, fun p => ?_, fun f hf => ?_, ?_⟩
  · rw [last]
    exact Store.setFlaw_format _ _ _
  · rw [last]
    rfl
  · refine Vector.ext fun i hi => ?_
    exact State.formattedAll_hits hs (v := fun t => t.store.settings[i]) (fun s a _ => State.formatted_settings s g n ⟨i, hi⟩ a) _ (item ⟨i, hi⟩)
      (by simp [Access.setsItem])
  · refine Vector.ext fun i hi => ?_
    exact State.formattedAll_hits hs (v := fun t => t.ctl.settings[i]) (fun s a _ => State.formatted_copy s g n ⟨i, hi⟩ a) _ (item ⟨i, hi⟩)
      (by simp [Access.setsItem])
  · exact State.formattedAll_hits hs (v := fun t => t.store.mark) (hits := (· == .formatMark)) (fun s a _ => State.formatted_mark s g n a) _ (formatMark_mem g) rfl
  · exact State.formattedAll_hits hs (v := fun t => t.sup.mark) (hits := (· == .formatMark)) (fun s a _ => State.formatted_supMark s g n a) _ (formatMark_mem g) rfl
  · exact State.formattedAll_hits hs (v := fun t => t.store.map[p]) (fun s a _ => State.formatted_map s g n p a) _ (formatMap_mem g p) (by simp)
  · exact State.formattedAll_hits hs (v := fun t => t.store.frame f) (hits := (· == .formatFrame f))
      (fun s a _ => State.formatted_frame s (hf.trans_le (frameCount_le g)) g n a) _ (formatFrame_mem hf) (by simp)
  · refine Store.flaws_of_clean (State.formattedAll_wf hs g n) fun k hk => ?_
    obtain ⟨a, ha, hit⟩ := formatTodo_writes g hk
    exact State.formattedAll_hits hs (v := fun t => t.store.flaw k) (fun s a h => State.formatted_flaw h hk g n a) a ha hit

theorem Work.endOp_finish_commission {w : Work} (ha : w.part = .commission) (hq : w.quiet = true) (r : Running) :
    (w.endOp r).finish = w.storeFreed := by
  rw [Work.endOp_commission ha, Work.finish_of_quiet _ (by exact hq)]
  rfl

/-- A vector entry set within bounds. -/
theorem Vector.set_eq_setIfInBounds {α : Type} {n : Nat} (v : Vector α n) (i : Nat) (x : α) :
    (if h : i < n then v.set i x h else v) = v.setIfInBounds i x := by
  refine Vector.ext fun j hj => ?_
  rw [Vector.getElem_setIfInBounds]
  by_cases h : i < n
  · rw [dif_pos h, Vector.getElem_set]
  · rw [dif_neg h, if_neg (by omega)]

/-- What the end of FORMAT adds to its writes (R152, R193). -/
def State.formatEnded (t : State) : State :=
  State.replied { t with
    ctl := { t.ctl with formatBad := false, wordBad := Vector.replicate 13 false, itemBad := Vector.replicate 96 false, current := none }
    backup := { t.backup with timer := 0, running := false, secondMs := 0 } } .ok []

theorem State.formatEnded_headerGood (t : State) : t.formatEnded.ctl.headerGood = true := by
  simp [State.formatEnded, State.replied, StoreCtl.headerGood]

theorem Work.formatEnd_finish {w : Work} (ha : w.part = .commission) (hq : w.quiet = true) (r : Running) :
    ((Work.respond { w with
      ctl := { w.ctl with formatBad := false, wordBad := Vector.replicate 13 false, itemBad := Vector.replicate 96 false }
      backup := { w.backup with timer := 0, running := false, secondMs := 0 } } .ok []).endOp r).finish = w.toState.formatEnded := by
  rw [Work.endOp_finish_commission (by exact ha) (by exact hq)]
  rfl

/-- FORMAT_END, all accesses of FORMAT having led to `t`. -/
theorem exec_formatEnd {s t : State} {g : Geometry} {n : Nat} (hp : s.powered = true) (hs : s.serving (.format g n) (formatTodo g))
    (run : Work.runPlain accessLimit (Work.begin s) = (Work.begin s).over (t.withCurrent (some (Running.of (.format g n) []))))
    (part : t.part = .commission) : exec (.formatEnd noFailures) s = .next t.formatEnded := by
  have e : exec (.formatEnd noFailures) s = execFormatEnd noFailures s := rfl
  rw [e, execFormatEnd, powered_on hp, Work.endWhere_done (w := Work.begin s) (found := noFailures) hs rfl run rfl rfl]
  exact congrArg Host.Outcome.next (Work.formatEnd_finish part rfl _)

/-- Settles O29. -/
theorem commissionWritesReachTheStore : Obligations.CommissionWritesReachTheStore := by
  unfold Obligations.CommissionWritesReachTheStore
  intro i n g s hp ha
  refine ⟨fun _ hs => ?_, fun hs hw => ?_⟩
  · have e : exec .settingsWriteEnd s = execSettingsWriteEnd s := rfl
    rw [e, execSettingsWriteEnd, powered_endWhere_one hp hs rfl rfl rfl rfl rfl rfl]
    refine ⟨_, congrArg Host.Outcome.next (Work.endOp_finish_commission (by exact ha) rfl _), rfl, ?_, Vector.set_eq_setIfInBounds _ _ _,
      Vector.set_eq_setIfInBounds _ _ _, rfl, rfl, rfl, ha, rfl, rfl, rfl, rfl, rfl⟩
    show Store.setFlaw { s.store with settings := _ } _ _ = _
    unfold Store.setFlaw
    split <;> rfl
  · have run := Work.runPlain_format (formatTodo g) accessLimit (Work.begin s) (fun _ h => h) (by cases g <;> decide) hw rfl hs
    have made := State.formattedAll_blank hw g n
    obtain ⟨part, port, events, backup, loaded, ctxs, link, arb⟩ := State.kept_of_offFormat (State.formattedAll_offFormat s s g n)
    have left := exec_formatEnd (t := s.formattedAll g n) hp hs run (part.trans ha)
    generalize s.formattedAll g n = t at made part port events backup loaded ctxs link arb left
    refine ⟨_, left, made.format, made.formatCopy, made.settings, made.copy, made.mark,
      made.markCopy, made.map, made.frames, made.flaws, State.formatEnded_headerGood _, loaded, part.trans ha, ctxs, link, arb, events, ?_, ?_⟩
    · exact congrArg (fun b : Backup => { b with timer := 0, running := false, secondMs := 0 }) backup
    · exact congrArg (fun b : HostPort => { b with state := .ready, request := none, response := some ⟨.ok, []⟩ }) port

end Sys2Proof.Machine
end
section
/-! SUPPORT. The three-step write of a checkpoint or a save write (R62, R146): its accesses over a clean frame, and what all of
them leave. -/

namespace Sys2Proof.Machine

/-! ### Fast fields written word by word -/

theorem FieldSet.has_or (m n : FieldSet) (i : Nat) : FieldSet.has (m ||| n) i = (m.has i || n.has i) := BitVec.getLsbD_or

/-- A blend after a blend of the same new values takes the fields of either. -/
theorem Fast.blend_blend (m n : FieldSet) (new old : Fast) : Fast.blend m new (Fast.blend n new old) = Fast.blend (n ||| m) new old := by
  have pick {α : Type} (i : Nat) (a b : α) : (if m.has i = true then a else if n.has i = true then a else b) =
      if FieldSet.has (n ||| m) i = true then a else b := by
    rw [FieldSet.has_or]
    cases m.has i <;> cases n.has i <;> rfl
  simp only [Fast.blend, pick]

theorem Fast.blend_zero (new old : Fast) : Fast.blend 0 new old = old := by
  simp [Fast.blend, FieldSet.has]

/-- A word written with the fields that it shares with a set takes those fields. -/
theorem Fast.blend_word (m d : FieldSet) (new old : Fast) : Fast.blend m (Fast.blend (m &&& d) new old) old = Fast.blend (m &&& d) new old := by
  have pick {α : Type} (i : Nat) (a b : α) : (if m.has i = true then (if FieldSet.has (m &&& d) i = true then a else b) else b) =
      if FieldSet.has (m &&& d) i = true then a else b := by
    rw [show FieldSet.has (m &&& d) i = (m.has i && d.has i) from BitVec.getLsbD_and]
    cases m.has i <;> cases d.has i <;> rfl
  simp only [Fast.blend, pick]

/-- A word of a frame written with new fast fields alone. -/
theorem Frame.copyWord_fast (r : Role) (x : Frame) (f : Fast) :
    Frame.copyWord r { x with fast := f } x = { x with fast := Fast.blend r.fields f x.fast } := by
  cases r <;> rfl

/-- The fields that the words of a list take from a dirty set. -/
def takenOf (g : Geometry) (dirty : FieldSet) (l : List Nat) (m : FieldSet) : FieldSet :=
  l.foldl (fun m k => m ||| ((roleOf g k).fields &&& dirty)) m

/-- The words that hold a dirty field hold all of them (R59, R62). -/
theorem takenOf_wordsOf {g : Geometry} {dirty : FieldSet} (h : dirty &&& ~~~ (allFields g) = 0) : takenOf g dirty (wordsOf g dirty) 0 = dirty := by
  have filtered (l : List Nat) : ∀ m, takenOf g dirty (l.filter fun k => (roleOf g k).fields &&& dirty != 0) m = takenOf g dirty l m := by
    induction l with
    | nil => exact fun _ => rfl
    | cons k l ih =>
      intro m
      by_cases e : (roleOf g k).fields &&& dirty = 0
      · rw [List.filter_cons_of_neg (by simpa using e), ih]
        simp [takenOf, e]
      · rw [List.filter_cons_of_pos (by simpa using e)]
        exact ih _
  have split (l : List Nat) : ∀ m, takenOf g dirty l (m &&& dirty) = l.foldl (fun m k => m ||| (roleOf g k).fields) m &&& dirty := by
    induction l with
    | nil => exact fun _ => rfl
    | cons k l ih =>
      intro m
      rw [List.foldl_cons, ← ih, takenOf, List.foldl_cons]
      refine congrArg (fun m => takenOf g dirty l m) ?_
      ext i hi
      simp only [BitVec.getElem_or, BitVec.getElem_and, Bool.and_or_distrib_right]
  have all : (List.range (frameSize g)).foldl (fun m k => m ||| (roleOf g k).fields) 0 = allFields g := by cases g <;> decide
  have within : allFields g &&& dirty = dirty := by
    ext i hi
    have bit := congrArg (·[i]) h
    simp only [BitVec.getElem_and, BitVec.getElem_not] at bit ⊢
    revert bit
    cases (allFields g)[i] <;> cases dirty[i] <;> simp
  have whole := split (List.range (frameSize g)) 0
  rw [all, within, show (0 : FieldSet) &&& dirty = 0 from BitVec.zero_and] at whole
  exact (filtered _ 0).trans whole

/-! ### The accesses over a clean frame -/

theorem Store.setFrame_setFrame (s : Store) (f : Nat) (x y : Frame) : (s.setFrame f x).setFrame f y = s.setFrame f y := by
  unfold Store.setFrame
  split
  · simp
  · rfl

theorem Store.frame_setFrame_self {s : Store} {f : Nat} (hf : f < 48) (x : Frame) : (s.setFrame f x).frame f = x := by
  rw [Store.frame_setFrame s f f x hf, if_pos rfl]

theorem upd_eq_self {α : Type} {n : Nat} {v : Vector α n} {p : Fin n} {x : α} (h : v[p] = x) : upd v p x = v := by
  subst h
  simp [upd]

/-- The words of a frame under write: a checkpoint of context `c` has written the fields `taken` over frame contents `x`, fields
`since` have changed since, and the accesses `todo` are still to make. -/
def Work.writing (w : Work) (p : Pocket) (c : Context) (op : StoreOp) (x : Frame) (todo : List Access) (taken since : FieldSet) : Work :=
  { w with store := w.store.setFrame c.frame { x with fast := Fast.blend taken c.fast x.fast }
           ctxs := upd w.ctxs p (some { c with since := since })
           ctl := { w.ctl with current := some { Running.of op todo with taken := taken } } }

section
variable {w : Work} {p : Pocket} {c : Context} {op : StoreOp} {x : Frame} {taken since : FieldSet}

theorem Work.writing_ctx (todo : List Access) : (w.writing p c op x todo taken since).ctx p = some { c with since := since } := upd_self _ _ _

theorem Work.writing_frame (hf : c.frame < 48) (todo : List Access) :
    (w.writing p c op x todo taken since).store.frame c.frame = { x with fast := Fast.blend taken c.fast x.fast } :=
  Store.frame_setFrame_self hf _

theorem Work.writing_clean (clean : w.frameClean c.frame) (todo : List Access) :
    (w.writing p c op x todo taken since).frameClean c.frame := fun k hk => (Store.setFrame_flaw _ _ _ _).trans (clean k hk)

theorem Work.writing_access (ho : op.recordPocket = some p) (a : Access) (todo : List Access) :
    (w.writing p c op x (a :: todo) taken since).access = Work.recordAccess (w.writing p c op x todo taken since)
      { Running.of op todo with taken := taken } p { c with since := since } a :=
  Work.access_record (r := { Running.of op (a :: todo) with taken := taken }) rfl rfl ho rfl (Work.writing_ctx _)

/-- Word `k` of a clean frame written over. -/
theorem Work.writeFrameWord_clean {f k : Nat} (h : w.store.flaw (frameWord w.geometry f k) = none) (src : Frame) :
    w.writeFrameWord f k src = { w with store := w.store.setFrame f (Frame.copyWord (roleOf w.geometry k) src (w.store.frame f)) } :=
  Work.wrote_clean (w := { w with store := w.store.setFrame f (Frame.copyWord (roleOf w.geometry k) src (w.store.frame f)) })
    ((Store.setFrame_flaw _ _ _ _).trans h)

theorem Work.writeHeader_clean {f : Nat} (h : w.store.flaw (frameWord w.geometry f 0) = none) (head : Header) :
    w.writeHeader f head = { w with store := w.store.setFrame f { w.store.frame f with header := head } } :=
  Work.wrote_clean (w := { w with store := w.store.setFrame f { w.store.frame f with header := head } }) ((Store.setFrame_flaw _ _ _ _).trans h)

theorem Work.onOpContext_of_ctx {r : Running} {d : Context} (hs : r.stash = none) (ho : r.op.recordPocket = some p) (hd : w.ctx p = some d)
    (f : Context → Context) : w.onOpContext r f = { w with ctxs := upd w.ctxs p (some (f d)) } := by
  simp only [Work.onOpContext, hs, ho, Work.onCtx, hd]
  rfl

theorem Work.carry_of_ctx {r q : Running} {d : Context} (hs : r.stash = none) (ho : r.op.recordPocket = some p) (hc : w.ctl.current = some q)
    (hd : w.ctx p = some d) (m : FieldSet) : w.carry r m =
      { w with ctxs := upd w.ctxs p (some { d with since := d.since &&& ~~~m }), ctl := { w.ctl with current := some { q with taken := q.taken ||| m } } } := by
  rw [Work.carry, Work.onRun_of_current hc]
  exact Work.onOpContext_of_ctx hs ho (by exact hd) _

/-- One word of a checkpoint (R62, step 2). -/
theorem Work.writing_merge (hf : c.frame < 48) (clean : w.frameClean c.frame) (ho : op.recordPocket = some p) (hs : c.stampPending = false)
    {k : Nat} (hk : k < frameSize w.geometry) (todo : List Access) :
    (w.writing p c op x (.merge k :: todo) taken since).access = w.writing p c op x todo
      (taken ||| ((roleOf w.geometry k).fields &&& c.dirty)) (since &&& ~~~ ((roleOf w.geometry k).fields &&& c.dirty)) := by
  have flaw := Work.writing_clean (p := p) (op := op) (x := x) (taken := taken) (since := since) clean todo k hk
  have ctx : (w.writing p c op x todo taken since).ctx p = some { c with since := since } := Work.writing_ctx todo
  rw [Work.writing_access ho]
  show Work.mergeWord (w.writing p c op x todo taken since) { Running.of op todo with taken := taken } { c with since := since } k = _
  unfold Work.mergeWord
  dsimp only
  rw [State.readable_clean flaw, if_pos rfl, Work.readWord_clean flaw, Work.writeFrameWord_clean flaw, Work.writing_frame hf, hs,
    if_neg Bool.false_ne_true, Frame.copyWord_fast, Fast.blend_word,
    Work.carry_of_ctx (d := { c with since := since }) rfl ho rfl (by exact ctx)]
  simp only [Work.writing, upd_upd, Store.setFrame_setFrame, Fast.blend_blend]
  rfl

/-- The words of a checkpoint, one after the other; a field written has not changed since (R59, R62). -/
theorem Work.runPlain_merges (hf : c.frame < 48) (clean : w.frameClean c.frame) (ho : op.recordPocket = some p) (hs : c.stampPending = false)
    (rest : List Access) (m : Nat) (l : List Nat) : ∀ taken since : FieldSet, since &&& taken = 0 → (∀ k ∈ l, k < frameSize w.geometry) →
      ∃ left, left &&& takenOf w.geometry c.dirty l taken = 0 ∧
        Work.runPlain (l.length + m) (w.writing p c op x (l.map Access.merge ++ rest) taken since) =
          Work.runPlain m (w.writing p c op x rest (takenOf w.geometry c.dirty l taken) left) := by
  induction l with
  | nil =>
    intro taken since h _
    exact ⟨since, h, by rw [List.length_nil, Nat.zero_add]; rfl⟩
  | cons k l ih =>
    intro taken since h hl
    obtain ⟨hk, hl⟩ := List.forall_mem_cons.1 hl
    generalize hg : (roleOf w.geometry k).fields &&& c.dirty = g
    have apart : since &&& ~~~ g &&& (taken ||| g) = 0 := by
      ext i hi
      have bit := congrArg (·[i]) h
      simp only [BitVec.getElem_and, BitVec.getElem_or, BitVec.getElem_not] at bit ⊢
      revert bit
      cases since[i] <;> cases taken[i] <;> cases g[i] <;> simp
    obtain ⟨left, disjoint, run⟩ := ih (taken ||| g) (since &&& ~~~ g) apart hl
    have taken' : takenOf w.geometry c.dirty (k :: l) taken = takenOf w.geometry c.dirty l (taken ||| g) := by rw [← hg]; rfl
    refine ⟨left, taken' ▸ disjoint, ?_⟩
    rw [List.length_cons, Nat.add_right_comm, Work.runPlain_step _ (r := { Running.of op ((k :: l).map Access.merge ++ rest) with taken := taken })
      rfl rfl rfl, List.map_cons, List.cons_append, Work.writing_merge hf clean ho hs hk, hg, run, taken']

/-- The first header write of a checkpoint (R62, step 1). -/
theorem Work.access_headerOpen (clean : w.frameClean c.frame) (ho : op.recordPocket = some p) (hc : w.ctx p = some c)
    {todo : List Access} (hr : w.ctl.current = some (Running.of op (.headerOpen :: todo))) :
    ∃ h, w.access = w.writing p c op { w.store.frame c.frame with header := h } todo 0 c.since := by
  refine ⟨c.header p true c.shadow.saved c.shadow.stamp, ?_⟩
  have size : 0 < frameSize w.geometry := by cases w.geometry <;> decide
  rw [Work.access_record hr rfl ho rfl hc]
  show Work.headerOpen _ p c = _
  rw [Work.headerOpen, Work.writeHeader_clean (by exact clean 0 size), Work.writing, Fast.blend_zero, upd_eq_self (by exact hc)]
  rfl

/-- The last header write of a checkpoint, or of a save write (R62, step 3). -/
theorem Work.recordAccess_headerClose (hf : c.frame < 48) (clean : w.frameClean c.frame) (ho : op.recordPocket = some p) (save : Bool)
    (h : since &&& taken = 0) (ht : taken = c.dirty) {r : Running} (hr : r.op = op) (hs : r.stash = none) (hk : r.taken = taken) :
    Work.headerClose (w.writing p c op x [] taken since) r p { c with since := since } save =
      { w with
        store := w.store.setFrame c.frame
          { x with header := c.header p false (save || c.shadow.saved) w.sup.uptime, fast := Fast.blend c.dirty c.fast x.fast }
        ctxs := upd w.ctxs p (some { c with
          dirty := 0, since := 0, stampPending := false, shadow := { c.shadow with stamp := w.sup.uptime, saved := save || c.shadow.saved } })
        ctl := { w.ctl with current := some { Running.of op [] with taken := taken } } } := by
  subst ht
  have size : 0 < frameSize w.geometry := by cases w.geometry <;> decide
  have flaw := Work.writing_clean (p := p) (op := op) (x := x) (taken := c.dirty) (since := since) clean [] 0 size
  have ctx : (w.writing p c op x [] c.dirty since).ctx p = some { c with since := since } := Work.writing_ctx []
  have dirty : c.dirty &&& ~~~ (c.dirty &&& ~~~ since) = 0 := by
    ext i hi
    have bit := congrArg (·[i]) h
    simp only [BitVec.getElem_and, BitVec.getElem_not] at bit ⊢
    revert bit
    cases since[i] <;> cases c.dirty[i] <;> simp
  rw [Work.headerClose]
  dsimp only
  rw [Work.writeHeader_clean flaw, Work.writing_frame hf, Work.onOpContext_of_ctx hs (hr ▸ ho) (by exact ctx)]
  simp only [Work.writing, upd_upd, Store.setFrame_setFrame, Context.carried, hk, dirty]
  rfl

end

/-! ### A checkpoint and a save write (R62, R146) -/

/-- The state once the record of `p` has been written from its context. -/
def State.recordWritten (s : State) (p : Pocket) (c : Context) (saved : Bool) : State :=
  (s.withFrame c.frame { s.store.frame c.frame with
      header := c.header p false saved s.sup.uptime, fast := Fast.blend c.dirty c.fast (s.store.frame c.frame).fast }).withCtx p
    (some { c with dirty := 0, since := 0, stampPending := false, shadow := { c.shadow with stamp := s.sup.uptime, saved := saved } })

theorem mem_wordsOf {g : Geometry} {m : FieldSet} {k : Nat} (h : k ∈ wordsOf g m) : k < frameSize g :=
  List.mem_range.1 (List.mem_of_mem_filter h)

theorem wordsOf_length (g : Geometry) (m : FieldSet) : (wordsOf g m).length ≤ 16 := by
  refine (List.length_filter_le _ _).trans ?_
  cases g <;> decide

/-- The accesses of a checkpoint or a save write (R62): every dirty field is written. -/
theorem runPlain_checkpoint {s : State} {p : Pocket} {c : Context} {op : StoreOp} (hc : s.ctx p = some c) (hf : c.frame < 48)
    (clean : s.frameClean c.frame) (hs : c.stampPending = false) (hd : c.dirty &&& ~~~ (allFields s.geometry) = 0) (ho : op.recordPocket = some p)
    (save : Bool) (close : ∀ (w : Work) (r : Running) (d : Context), r.op = op → w.recordAccess r p d .headerClose = w.headerClose r p d save)
    (hr : s.serving op (checkpointTodo s.geometry c)) : Work.runPlain accessLimit (Work.begin s) =
      Work.begin { s.recordWritten p c (save || c.shadow.saved) with
        ctl := { s.ctl with current := some { Running.of op [] with taken := c.dirty } } } := by
  have todo : checkpointTodo s.geometry c = .headerOpen :: ((wordsOf s.geometry c.dirty).map Access.merge ++ [.headerClose]) := by
    simp [checkpointTodo, hs]
  rw [State.serving, todo] at hr
  obtain ⟨m, len⟩ : ∃ m, accessLimit = ((wordsOf s.geometry c.dirty).length + (m + 1)) + 1 := by
    have := wordsOf_length s.geometry c.dirty
    exact ⟨accessLimit - 2 - (wordsOf s.geometry c.dirty).length, by unfold accessLimit; omega⟩
  obtain ⟨h, opened⟩ := Work.access_headerOpen (w := Work.begin s) clean ho hc hr
  obtain ⟨left, apart, merged⟩ := Work.runPlain_merges (w := Work.begin s) (x := { s.store.frame c.frame with header := h }) hf clean ho hs
    [.headerClose] (m + 1) (wordsOf s.geometry c.dirty) 0 c.since (BitVec.and_zero ..) fun _ => mem_wordsOf
  have all : takenOf s.geometry c.dirty (wordsOf s.geometry c.dirty) 0 = c.dirty := takenOf_wordsOf hd
  rw [show (Work.begin s).geometry = s.geometry from rfl, all] at apart merged
  rw [len, Work.runPlain_step _ (w := Work.begin s) hr rfl rfl, opened]
  refine merged.trans ?_
  rw [Work.runPlain_step m (r := { Running.of op [.headerClose] with taken := c.dirty }) rfl rfl rfl, Work.writing_access ho, close _ _ _ rfl,
    Work.recordAccess_headerClose hf clean ho save apart rfl rfl rfl rfl]
  exact Work.runPlain_done m rfl rfl

theorem Work.checkpointEnded_of_ctx {w : Work} {p : Pocket} {c : Context} (hc : w.ctx p = some c) :
    w.checkpointEnded p = w.setCtx p (some { c with timer := w.setting 1, checkpoint := if w.checkpointQueued p then .queued else .idle }) := by
  rw [Work.checkpointEnded, Work.onCtx_of_ctx hc]

theorem State.recordWritten_ctx (s : State) (p : Pocket) (c : Context) (saved : Bool) : (s.recordWritten p c saved).ctx p =
    some { c with dirty := 0, since := 0, stampPending := false, shadow := { c.shadow with stamp := s.sup.uptime, saved := saved } } :=
  upd_self _ _ _

/-- A checkpoint demanded of a context in ACTIVE, none of it waiting (R40, R61). -/
theorem Work.demandCheckpoint_unqueued {w : Work} {p : Pocket} {c : Context} (ha : w.part = .active) (hc : w.ctx p = some c)
    (hq : w.checkpointQueued p = false) : w.demandCheckpoint p =
      (w.setCtx p (some { c with checkpoint := if c.checkpoint = .writing then .writing else .queued })).enqueue (.checkpoint p) := by
  unfold Work.demandCheckpoint
  rw [if_neg (by simp [ha, hc, hq]), Work.onCtx_of_ctx hc]

/-- Settles O23. -/
theorem checkpointsFallDueAndWrite : Obligations.CheckpointsFallDueAndWrite := by
  unfold Obligations.CheckpointsFallDueAndWrite
  refine ⟨fun p c s hp ha hc ht => ?_, fun p c s hp ha hc hf clean pin hs hd hr => ?_⟩
  · have e : exec (.checkpointTimerExpiry p) s = .next ((Work.begin s).timerAtZero p).finish := by
      have e : exec (.checkpointTimerExpiry p) s = execCheckpointTimerExpiry p s := rfl
      rw [e, execCheckpointTimerExpiry, powered_on hp, if_pos ⟨by exact ha, by
        show (s.ctx p).map _ = _
        rw [hc, Option.map_some, ht]⟩]
    rw [e]
    have ctx : (Work.begin s).ctx p = some c := hc
    refine ⟨fun clean => ?_, fun dirty idle hq => ?_, fun dirty busy => ?_⟩
    · rw [Work.timerAtZero, ctx]
      dsimp only
      rw [if_pos clean, Work.onCtx_of_ctx ctx]
      exact congrArg Host.Outcome.next (Work.finish_of_quiet _ rfl)
    · rw [Work.timerAtZero, ctx]
      dsimp only
      rw [if_neg dirty, if_pos idle, Work.demandCheckpoint_unqueued (by exact ha) ctx (by exact hq), idle]
      exact congrArg Host.Outcome.next (Work.finish_of_quiet _ rfl)
    · rw [Work.timerAtZero, ctx]
      dsimp only
      rw [if_neg dirty, if_neg busy]
      exact congrArg Host.Outcome.next (Work.finish_of_quiet _ rfl)
  · have e : exec (.checkpointEnd noFailures) s = execCheckpointEnd noFailures s := rfl
    have run := runPlain_checkpoint hc hf clean hs hd rfl false (fun w r d h => by simp only [Work.recordAccess, h]) hr
    rw [Bool.false_or] at run
    rw [e, execCheckpointEnd, powered_on hp, Work.endWhere_done (w := Work.begin s) (found := noFailures) hr rfl run rfl rfl]
    refine congrArg Host.Outcome.next ?_
    show (Work.endOp (Work.checkpointEnded (Work.begin { s.recordWritten p c c.shadow.saved with ctl := _ }) p) _).finish = _
    rw [Work.checkpointEnded_of_ctx (by exact State.recordWritten_ctx s p c c.shadow.saved), Work.endOp_finish_of_quiet (by exact ha) rfl]
    simp only [Work.setCtx, State.recordWritten, State.withCtx, Work.begin, upd_upd]
    rfl

end Sys2Proof.Machine
end
section
/-! SUPPORT. The end of a save write: what the rest of the save leaves of the records (R144 to R147). -/

namespace Sys2Proof.Machine

/-! ### What the save spares of a record that has been written -/

/-- From `s` to `t` the store and the port stand, the context of `p` too, and every context has kept its fast fields; the part does
not become ACTIVE. -/
structure State.Spares (p : Pocket) (s t : State) : Prop where
  store : t.store = s.store
  port : t.port = s.port
  ctx : t.ctx p = s.ctx p
  fast : ∀ q, (t.ctx q).map (·.fast) = (s.ctx q).map (·.fast)
  rest : s.part ≠ .active → t.part ≠ .active

theorem State.Spares.of_ctxs {p : Pocket} {s t : State} (hs : t.store = s.store) (hp : t.port = s.port) (hc : t.ctxs = s.ctxs)
    (hr : s.part ≠ .active → t.part ≠ .active) : State.Spares p s t :=
  have ctx (q : Pocket) : t.ctx q = s.ctx q := congrArg (·[q]) hc
  ⟨hs, hp, ctx p, fun q => congrArg _ (ctx q), hr⟩

theorem State.Spares.trans {p : Pocket} {s t u : State} (a : State.Spares p s t) (b : State.Spares p t u) : State.Spares p s u :=
  ⟨b.store.trans a.store, b.port.trans a.port, b.ctx.trans a.ctx, fun q => (b.fast q).trans (a.fast q), fun h => b.rest (a.rest h)⟩

theorem State.Spares.refl (p : Pocket) (s : State) : State.Spares p s s := .of_ctxs rfl rfl rfl id

theorem Work.onCtx_spares {p q : Pocket} (h : p ≠ q) (w : Work) {f : Context → Context} (hf : ∀ c, (f c).fast = c.fast) :
    State.Spares p w.toState (w.onCtx q f).toState := by
  obtain ⟨store, port, part⟩ : w.store = (w.onCtx q f).store ∧ w.port = (w.onCtx q f).port ∧ w.part = (w.onCtx q f).part := by
    unfold Work.onCtx
    split <;> exact ⟨rfl, rfl, rfl⟩
  refine ⟨store.symm, port.symm, Work.ctx_onCtx_other w f h, fun r => ?_, fun h => part ▸ h⟩
  by_cases e : r = q
  · subst e
    rw [Work.ctx_onCtx_self, Option.map_map]
    exact congrArg (Option.map · (w.ctx r)) (funext hf)
  · rw [Work.ctx_onCtx_other w f e]

theorem Work.rederive_spares (p q : Pocket) (w : Work) : State.Spares p w.toState (w.rederive q).toState :=
  have h := w.rederive_offLink q
  .of_ctxs (congrArg State.store h :) (congrArg State.port h :) (congrArg State.ctxs h :) fun out => (congrArg State.part h :).symm ▸ out

theorem Work.pin_spares {p q : Pocket} (h : p ≠ q) (w : Work) : State.Spares p w.toState (w.pin q).toState := by
  unfold Work.pin
  cases w.ctx q with
  | none => exact .refl p _
  | some c =>
    dsimp only
    have pinned : State.Spares p w.toState ((w.onCtx q fun c => { c with pinned := true }).markPart .store).toState :=
      (Work.onCtx_spares h w (by exact fun _ => rfl)).trans (.of_ctxs rfl rfl rfl id)
    split
    · exact .refl p _
    · split
      · exact pinned
      · exact pinned.trans ((Work.onCtx_spares h _ (by exact fun _ => rfl)).trans (Work.rederive_spares p q _))

/-- The context that the save writes next has something to write (R145). -/
theorem State.nextSaved_eligible {s : State} {q : Pocket} {c : Context} (h : s.nextSaved = some (q, c)) : s.ctx q = some c ∧ c.eligible = true := by
  have fold (l : List Pocket) : ∀ best : Option (Pocket × Context), (∀ x, best = some x → s.ctx x.1 = some x.2 ∧ x.2.eligible = true) →
      ∀ x, l.foldl (fun best p =>
        match s.ctx p, best with
        | some c, some (_, b) => if c.eligible && savedBefore c.fast b.fast then some (p, c) else best
        | some c, none => if c.eligible then some (p, c) else none
        | none, _ => best) best = some x → s.ctx x.1 = some x.2 ∧ x.2.eligible = true := by
    induction l with
    | nil => exact fun best h x hx => h x hx
    | cons p l ih =>
      intro best hb x hx
      refine ih _ (fun y hy => ?_) x hx
      cases hc : s.ctx p with
      | none => exact hb y (by simpa [hc] using hy)
      | some d =>
        cases best with
        | none =>
          simp only [hc] at hy
          split at hy
          · cases hy
            exact ⟨hc, by assumption⟩
          · cases hy
        | some b =>
          simp only [hc] at hy
          split at hy
          · rename_i better
            cases hy
            exact ⟨hc, (Bool.and_eq_true_iff.1 better).1⟩
          · exact hb y hy
  exact fold allPockets none (fun _ h => nomatch h) (q, c) h

/-- Where no context is eligible the save writes none. -/
theorem State.nextSaved_none {s : State} (h : ∀ q d, s.ctx q = some d → d.eligible = false) : s.nextSaved = none := by
  cases hn : s.nextSaved with
  | none => rfl
  | some x =>
    obtain ⟨hc, he⟩ := State.nextSaved_eligible hn
    exact absurd (h _ _ hc) (by simp [he])

theorem Work.enterPlan_spares (p : Pocket) (dip : Bool) (w : Work) : State.Spares p w.toState (w.enterPlan dip).toState :=
  have view := w.enterPlan_offBringUp dip
  .of_ctxs ((State.store_of_offBringUp view).trans rfl) ((State.port_of_offBringUp view).trans rfl) ((State.ctxs_of_offBringUp view).trans rfl) fun _ =>
    (State.part_of_offBringUp view).trans_ne PartState.noConfusion

theorem Work.endSave_spares (p : Pocket) (w : Work) : State.Spares p w.toState w.endSave.toState := by
  unfold Work.endSave
  dsimp only
  split
  · refine State.Spares.trans ?_ (Work.enterPlan_spares p true _)
    exact .of_ctxs rfl rfl rfl id
  · exact .of_ctxs rfl rfl rfl fun _ => PartState.noConfusion

/-- The rest of the save leaves a record that needs no write. -/
theorem Work.saveNext_spares {p : Pocket} (n : Nat) : ∀ {w : Work}, (∀ c, w.ctx p = some c → c.eligible = false) →
    State.Spares p w.toState (Work.saveNext n w).toState := by
  induction n with
  | zero => exact fun _ => .refl p _
  | succ n ih =>
    intro w hw
    unfold Work.saveNext
    generalize hn : (if w.sup.save.charged < w.setting 6 then w.nextSaved else none) = best
    cases best with
    | none => exact Work.endSave_spares p w
    | some x =>
      obtain ⟨q, c⟩ := x
      have next : w.nextSaved = some (q, c) := by
        split at hn
        · exact hn
        · cases hn
      obtain ⟨hc, he⟩ := State.nextSaved_eligible next
      have other : p ≠ q := by
        rintro rfl
        exact absurd (hw c hc) (by simp [he])
      have begun : State.Spares p w.toState (w.charge.onCtx q fun c => { c with checkpoint := .writing }).toState :=
        .trans (t := w.charge.toState) (.of_ctxs rfl rfl rfl id) (Work.onCtx_spares other w.charge (by exact fun _ => rfl))
      dsimp only
      split
      · cases hb : Work.beginMove (w.charge.onCtx q fun c => { c with checkpoint := .writing })
            (Running.of (.saveWrite q) (checkpointTodo (w.charge.onCtx q fun c => { c with checkpoint := .writing }).geometry c)) c.frame [] with
        | some v =>
          dsimp only
          refine begun.trans ?_
          unfold Work.beginMove at hb
          split at hb
          · cases hb
          · cases hb
            exact .of_ctxs rfl rfl rfl id
        | none =>
          dsimp only
          have pinned := begun.trans ((Work.onCtx_spares other _ (f := fun c => { c with checkpoint := .idle }) (by exact fun _ => rfl)).trans (Work.pin_spares other _))
          exact pinned.trans (ih fun d hd => hw d (pinned.ctx.symm.trans hd))
      · exact begun.trans (.of_ctxs rfl rfl rfl id)

theorem Work.saveCounted_spares (p : Pocket) (w : Work) (r : Running) : State.Spares p w.toState (w.saveCounted r).toState := by
  unfold Work.saveCounted Work.decideMark
  repeat' split
  all_goals exact .of_ctxs rfl rfl rfl id

/-! ### The save write (R146) -/

/-- The state in which a save write of the record of `p` has ended, the rest of the save to follow. -/
def State.saveWritten (s : State) (p : Pocket) (c : Context) : State :=
  (s.storeFreed.withFrame c.frame { s.store.frame c.frame with
      header := c.header p false true s.sup.uptime, fast := Fast.blend c.dirty c.fast (s.store.frame c.frame).fast }).withCtx p
    (some (c.written s.sup.uptime (s.setting 1) true (s.checkpointQueued p)))

theorem Work.endOp_save {w : Work} (h : w.part = .save) (r : Running) :
    w.endOp r = Work.saveAdvance { w with ctl := { w.ctl with current := none } } r := by simp [Work.endOp, h]

theorem exec_saveWriteEnd {s : State} {p : Pocket} {c : Context} (hp : s.powered = true) (ha : s.part = .save) (hc : s.ctx p = some c) (hf : c.frame < 48)
    (clean : s.frameClean c.frame) (hs : c.stampPending = false) (hd : c.dirty &&& ~~~ (allFields s.geometry) = 0)
    (hr : s.serving (.saveWrite p) (checkpointTodo s.geometry c)) : exec (.saveWriteEnd noFailures) s =
      .next ((Work.begin (s.saveWritten p c)).saveAdvance { Running.of (.saveWrite p) [] with taken := c.dirty }).finish := by
  have e : exec (.saveWriteEnd noFailures) s = execSaveWriteEnd noFailures s := rfl
  have run := runPlain_checkpoint hc hf clean hs hd rfl true (fun w r d h => by simp only [Work.recordAccess, h]) hr
  rw [Bool.true_or] at run
  rw [e, execSaveWriteEnd, powered_on hp, Work.endWhere_done (w := Work.begin s) (found := noFailures) hr rfl run rfl rfl]
  refine congrArg (fun w : Work => Host.Outcome.next w.finish) ?_
  show Work.endOp (Work.checkpointEnded (Work.begin { s.recordWritten p c true with ctl := _ }) p) _ = _
  rw [Work.checkpointEnded_of_ctx (by exact State.recordWritten_ctx s p c true)]
  rw [Work.endOp_save (by exact ha)]
  simp only [Work.setCtx, State.recordWritten, State.withCtx, Work.begin, upd_upd, State.withFrame]
  rfl

/-- Where no context is eligible, or the budget is spent, a save that cannot lead to PLAN leads to DARK (R147). -/
theorem Work.saveNext_dark {w : Work} (n : Nat) (hs : w.sup.settled = false)
    (h : (if w.sup.save.charged < w.setting 6 then w.nextSaved else none) = none) : (Work.saveNext (n + 1) w).part = .dark ∧
      (Work.saveNext (n + 1) w).sup.report.map (·.written) = some w.sup.save.written ∧
      (Work.saveNext (n + 1) w).sup.report.map (·.unsaved) = some ((allPockets.filterMap w.ctx).filter (·.eligible)).length := by
  unfold Work.saveNext
  rw [h]
  dsimp only [Work.endSave]
  rw [if_neg (by simp [hs])]
  exact ⟨rfl, rfl, rfl⟩

/-- Settles O24. -/
theorem saveWriteKeepsTheRecord : Obligations.SaveWriteKeepsTheRecord := by
  unfold Obligations.SaveWriteKeepsTheRecord
  intro p c s hp ha hc hf clean pin hs hd hr
  have ctx : (s.saveWritten p c).ctx p = some (c.written s.sup.uptime (s.setting 1) true (s.checkpointQueued p)) := upd_self _ _ _
  have other (q : Pocket) (h : q ≠ p) : (s.saveWritten p c).ctx q = s.ctx q := upd_other _ _ h
  have spared (d : Context) (hd : (s.saveWritten p c).ctx p = some d) : d.eligible = false := by
    cases ctx.symm.trans hd
    rfl
  have written : s.sup.save.opAtWarning = false → (Work.begin (s.saveWritten p c)).saveCounted { Running.of (.saveWrite p) [] with taken := c.dirty } =
      { Work.begin (s.saveWritten p c) with sup := { s.sup with save := { s.sup.save with written := s.sup.save.written + 1 } } } := by
    intro h
    have loose : (((Work.begin (s.saveWritten p c)).ctx p).map (·.pinned)).getD false = false := by
      rw [show (Work.begin (s.saveWritten p c)).ctx p = _ from ctx]
      exact pin
    unfold Work.saveCounted
    rw [if_neg (by rw [show (Work.begin (s.saveWritten p c)).sup.save.opAtWarning = false from h]; exact Bool.false_ne_true)]
    simp only [Running.of, loose]
    rfl
  have kept : State.Spares p (s.saveWritten p c)
      ((Work.begin (s.saveWritten p c)).saveAdvance { Running.of (.saveWrite p) [] with taken := c.dirty }).toState := by
    have counted := Work.saveCounted_spares p (Work.begin (s.saveWritten p c)) { Running.of (.saveWrite p) [] with taken := c.dirty }
    rw [Work.saveAdvance_eq]
    split
    · exact counted.trans (Work.saveNext_spares 40 fun d hd => spared d (counted.ctx.symm.trans hd))
    · exact counted
  have out := kept.rest (by rw [show (s.saveWritten p c).part = _ from ha]; exact PartState.noConfusion)
  refine ⟨_, (exec_saveWriteEnd hp ha hc hf clean hs hd hr).trans (congrArg Host.Outcome.next (Work.finish_outside_active _ out)), kept.store,
    kept.ctx.trans ctx, kept.port, fun q => ?_, fun hw hq settled => ?_⟩
  · rw [kept.fast q]
    by_cases h : q = p
    · subst h
      rw [ctx, hc]
      rfl
    · rw [other q h]
  · rw [Work.saveAdvance_eq, written hw, if_pos (List.isEmpty_iff.2 (by exact hq))]
    refine ⟨fun room alone => ?_, fun full => ?_⟩
    · have idle (q : Pocket) (d : Context) (hd : (s.saveWritten p c).ctx q = some d) : d.eligible = false := by
        by_cases h : q = p
        · subst h
          exact spared d hd
        · exact alone q d h ((other q h).symm.trans hd)
      have unsaved : ((allPockets.filterMap (s.saveWritten p c).ctx).filter (·.eligible)).length = 0 := by
        rw [List.length_eq_zero_iff, List.filter_eq_nil_iff]
        intro d hd
        obtain ⟨q, -, hq⟩ := List.mem_filterMap.1 hd
        simp [idle q d hq]
      obtain ⟨dark, report, left⟩ := Work.saveNext_dark (w := { Work.begin (s.saveWritten p c) with
        sup := { s.sup with save := { s.sup.save with written := s.sup.save.written + 1 } } }) 39 settled
          (ite_eq_right_iff.2 fun _ => State.nextSaved_none idle)
      exact ⟨dark, report, left.trans (congrArg some unsaved)⟩
    · obtain ⟨dark, report, -⟩ := Work.saveNext_dark (w := { Work.begin (s.saveWritten p c) with
        sup := { s.sup with save := { s.sup.save with written := s.sup.save.written + 1 } } }) 39 settled (if_neg (by exact Nat.not_lt.2 full))
      exact ⟨dark, report⟩

end Sys2Proof.Machine
end
section
/-! SUPPORT. A state that agrees with an explicit one but for the link, the reservations, the requests and the static reads in
the operation queue: what the operations on a record make of it, step by step. -/

namespace Sys2Proof.Machine

/-! ### The operations that wait, but for static reads -/

/-- Whether an operation is a static read of the cycle engine. -/
def StoreOp.isRead (op : StoreOp) : Bool :=
  match op with
  | .staticRead _ _ => true
  | _ => false

/-- The waiting operations but for the static reads. -/
def State.duties (s : State) : List StoreOp := s.ctl.queue.filter fun op => !op.isRead

theorem State.duties_of_ctl {a b : State} (h : a.ctl = b.ctl) : a.duties = b.duties := by rw [State.duties, h, State.duties]

theorem State.checkpointQueued_of_duties {a b : State} (h : a.duties = b.duties) (p : Pocket) : a.checkpointQueued p = b.checkpointQueued p := by
  have known (s : State) : s.checkpointQueued p = s.duties.any (·.isCheckpointOf p) := by
    unfold State.checkpointQueued State.duties
    induction s.ctl.queue with
    | nil => rfl
    | cons op l ih =>
      cases op <;> simp_all [StoreOp.isRead, StoreOp.isCheckpointOf]
  rw [known, known, h]

section
variable (w : Work) (p : Pocket)

@[simp] theorem Work.demandRead_duties (why : ReadPurpose) : (w.demandRead p why).duties = w.duties := by
  unfold Work.demandRead
  split
  · unfold State.duties
    dsimp only
    induction w.ctl.queue with
    | nil => rfl
    | cons op l ih =>
      cases op with
      | staticRead q ps =>
        by_cases e : q = p <;> simpa [StoreOp.isRead, e] using ih
      | _ => simpa [StoreOp.isRead] using ih
  · simp [State.duties, StoreOp.isRead]

@[simp] theorem Work.releaseReservation_duties : (w.releaseReservation p).duties = w.duties := by
  unfold Work.releaseReservation
  split <;> rfl

@[simp] theorem Work.setWaitList_duties (x : SupplyPhase) (l : List Pocket) : (w.setWaitList x l).duties = w.duties := by cases x <;> rfl

@[simp] theorem Work.leaveWaitList_duties : (w.leaveWaitList p).duties = w.duties := by
  unfold Work.leaveWaitList
  dsimp only
  split
  · exact Work.setWaitList_duties w _ _
  · rfl

@[simp] theorem Work.releaseHeat_duties : (w.releaseHeat p).duties = w.duties := by simp [Work.releaseHeat]

@[simp] theorem Work.makeRequest_duties (n : Nat) : (w.makeRequest p n).duties = w.duties := by
  unfold Work.makeRequest
  repeat' split
  all_goals rfl

theorem Work.removeEntries_duties (f : Entry → Bool) : (w.removeEntries f).duties = w.duties := State.duties_of_ctl (Work.removeEntries_ctl w f)

@[simp] theorem Work.join_duties (k : CommandKind) : (w.join p k).duties = w.duties := by
  unfold Work.join
  split <;> rfl

@[simp] theorem Work.onLink_duties (f : PocketLink → PocketLink) : (w.onLink p f).duties = w.duties := rfl

@[simp] theorem Work.setQueue_duties (q : List Entry) : (w.setQueue q).duties = w.duties := rfl

@[simp] theorem Work.convergeMotor_duties : (w.convergeMotor p).duties = w.duties := by
  unfold Work.convergeMotor Work.postStop Work.postRun
  repeat' split
  all_goals simp [Work.removeEntries_duties]

@[simp] theorem Work.convergeLevel_duties : (w.convergeLevel p).duties = w.duties := by
  unfold Work.convergeLevel Work.postHeatOn
  repeat' split
  all_goals simp

@[simp] theorem Work.convergeHeat_duties : (w.convergeHeat p).duties = w.duties := by
  unfold Work.convergeHeat Work.postHeatOff
  repeat' split
  all_goals simp [Work.removeEntries_duties]

@[simp] theorem Work.convergeOne_duties : (w.convergeOne p).duties = w.duties := by
  unfold Work.convergeOne
  split <;> simp

@[simp] theorem Work.postProbe_duties : (w.postProbe p).duties = w.duties := by
  unfold Work.postProbe
  split <;> simp

@[simp] theorem Work.admitHeld_duties : w.admitHeld.duties = w.duties := by
  have probes (v : Work) : v.admitProbes.duties = v.duties := by
    unfold Work.admitProbes
    split
    · exact foldl_view State.duties _ (fun v q => by split <;> simp) _ v
    · rfl
  unfold Work.admitHeld
  split
  · rw [probes, Work.convergeWaiting, foldl_view State.duties _ (fun v q => by split <;> simp)]
  · rfl

@[simp] theorem Work.endAuthority_duties : (w.endAuthority p).duties = w.duties := by
  unfold Work.endAuthority
  split
  · exact Work.removeEntries_duties _ _
  · rfl

@[simp] theorem Work.rederive_duties : (w.rederive p).duties = w.duties := by
  unfold Work.rederive Work.converge
  dsimp only
  split <;> simp

/-! ### What these call for -/

@[simp] theorem Work.endAuthority_grant : (w.endAuthority p).grant = w.grant := by
  unfold Work.endAuthority
  split
  · exact Work.removeEntries_grant _ _
  · rfl

@[simp] theorem Work.rederive_grant : (w.rederive p).grant = w.grant := by
  unfold Work.rederive
  dsimp only
  split <;> simp

end

/-! ### Agreement with an explicit state -/

/-- The states agree but for the link, the reservations, the requests, the slots and the static reads that wait. -/
structure State.Near (a b : State) : Prop where
  view : a.offLink = b.offLink
  duties : a.duties = b.duties

section
variable {w : Work} {s : State} {p : Pocket}

theorem State.Near.refl (s : State) : s.Near s := ⟨rfl, rfl⟩

theorem State.Near.part {a b : State} (h : a.Near b) : a.part = b.part := (congrArg State.part h.view :)
theorem State.Near.ctxs {a b : State} (h : a.Near b) : a.ctxs = b.ctxs := (congrArg State.ctxs h.view :)
theorem State.Near.ctx {a b : State} (h : a.Near b) (p : Pocket) : a.ctx p = b.ctx p := congrArg (·[p]) h.ctxs
theorem State.Near.offGrant {a b : State} (h : a.Near b) : a.offGrant = b.offGrant := State.offGrant_of_offLink h.view

theorem State.Near.rederive (h : w.Near s) (p : Pocket) : (w.rederive p).Near s := ⟨(w.rederive_offLink p).trans h.view, (w.rederive_duties p).trans h.duties⟩
theorem State.Near.removeRequest (h : w.Near s) (p : Pocket) : (w.removeRequest p).Near s := ⟨(w.removeRequest_offLink p).trans h.view, h.duties⟩
theorem State.Near.makeRequest (h : w.Near s) (p : Pocket) (n : Nat) : (w.makeRequest p n).Near s :=
  ⟨(w.makeRequest_offLink p n).trans h.view, (w.makeRequest_duties p n).trans h.duties⟩
theorem State.Near.releaseHeat (h : w.Near s) (p : Pocket) : (w.releaseHeat p).Near s :=
  ⟨(w.releaseHeat_offLink p).trans h.view, (w.releaseHeat_duties p).trans h.duties⟩
theorem State.Near.demandRead (h : w.Near s) (p : Pocket) (why : ReadPurpose) : (w.demandRead p why).Near s :=
  ⟨(w.demandRead_offLink p why).trans h.view, (w.demandRead_duties p why).trans h.duties⟩
theorem State.Near.removeEntries (h : w.Near s) (f : Entry → Bool) : (w.removeEntries f).Near s :=
  ⟨(w.removeEntries_offLink f).trans h.view, (w.removeEntries_duties f).trans h.duties⟩
theorem State.Near.setQueue (h : w.Near s) (q : List Entry) : (w.setQueue q).Near s := ⟨h.view, h.duties⟩

theorem State.Near.mark (h : w.Near s) (k : PocketEvent) (p : Pocket) : (w.mark k p).Near (s.marked k p) :=
  ⟨(congrArg (State.marked · k p) h.view :), h.duties⟩

theorem State.Near.markIf (h : w.Near s) (b : Bool) (k : PocketEvent) (p : Pocket) :
    (if b = true then w.mark k p else w).Near (s.markedIf b k p) := by
  cases b with
  | false => exact h
  | true => exact h.mark k p

theorem State.Near.respond (h : w.Near s) (r : Result) (bytes : List Byte) : (w.respond r bytes).Near (s.replied r bytes) :=
  ⟨(congrArg (State.replied · r bytes) h.view :), h.duties⟩

theorem State.Near.setCtx (h : w.Near s) (p : Pocket) (c : Option Context) : (w.setCtx p c).Near (s.withCtx p c) :=
  ⟨(congrArg (State.withCtx · p c) h.view :), h.duties⟩

theorem State.Near.onCtx (h : w.Near s) {c : Context} (hc : s.ctx p = some c) (f : Context → Context) : (w.onCtx p f).Near (s.withCtx p (some (f c))) := by
  rw [Work.onCtx_of_ctx ((h.ctx p).trans hc)]
  exact h.setCtx p _

theorem State.Near.onFast (h : w.Near s) {c : Context} (hc : s.ctx p = some c) (f : Fast → Fast) : (w.onFast p f).Near (s.withCtx p (some (c.change f))) :=
  h.onCtx hc _

theorem State.Near.enqueue (h : w.Near s) {op : StoreOp} (ho : op.isRead = false) : (w.enqueue op).Near (s.queues op) := by
  refine ⟨h.view, ?_⟩
  have joined (q : List StoreOp) : (q ++ [op]).filter (fun op => !op.isRead) = q.filter (fun op => !op.isRead) ++ [op] := by simp [ho]
  exact (joined _).trans ((congrArg (· ++ [op]) h.duties).trans (joined _).symm)

theorem State.Near.free (h : w.Near s) : State.Near ({ w with ctl := { w.ctl with current := none } } : Work).toState s.storeFreed :=
  ⟨(congrArg State.storeFreed h.view :), h.duties⟩

theorem State.Near.markPart (h : w.Near s) (k : PartEvent) : (w.markPart k).Near (s.markedPart k) :=
  ⟨(congrArg (State.markedPart · k) h.view :), h.duties⟩

theorem State.ctx_withCtx (s : State) (p : Pocket) (c : Option Context) : (s.withCtx p c).ctx p = c := upd_self _ _ _

theorem State.ctx_withCtx_other (s : State) {p q : Pocket} (c : Option Context) (h : q ≠ p) : (s.withCtx p c).ctx q = s.ctx q := upd_other _ _ h

theorem State.withCtx_withCtx (s : State) (p : Pocket) (c d : Option Context) : (s.withCtx p c).withCtx p d = s.withCtx p d := by
  simp [State.withCtx, upd_upd]

/-- The state once a checkpoint of the record of `p` has been demanded, whose context is `c` (R40, R61). -/
def State.demanded (s : State) (p : Pocket) (c : Context) : State :=
  if s.checkpointQueued p then s
  else (s.withCtx p (some { c with checkpoint := if c.checkpoint = .writing then .writing else .queued })).queues (.checkpoint p)

theorem State.Near.demandCheckpoint (h : w.Near s) (ha : s.part = .active) {c : Context} (hc : s.ctx p = some c) :
    (w.demandCheckpoint p).Near (s.demanded p c) := by
  have queued := State.checkpointQueued_of_duties h.duties p
  have ctx := (h.ctx p).trans hc
  unfold State.demanded
  by_cases hq : s.checkpointQueued p = true
  · rw [if_pos hq, Work.demandCheckpoint, if_pos (.inr (.inr (.inr (queued.trans hq))))]
    exact h
  · rw [if_neg hq, Work.demandCheckpoint_unqueued (h.part.trans ha) ctx (queued.trans (by simpa using hq))]
    exact (h.setCtx p _).enqueue rfl

theorem State.withCtx_of_ctx {s : State} {p : Pocket} {c : Option Context} (hc : s.ctx p = c) : s.withCtx p c = s := by
  rw [State.withCtx, upd_eq_self (by exact hc)]

theorem State.demanded_offLink {s : State} {p : Pocket} {c : Context} (hc : s.ctx p = some c) :
    (s.demanded p c).offLink = (s.withCtx p (some (s.due p c))).offLink := by
  unfold State.demanded State.due
  split
  · rw [State.withCtx_of_ctx hc]
  · rfl

theorem State.demanded_ctx {s : State} {p : Pocket} {c : Context} (hc : s.ctx p = some c) : (s.demanded p c).ctx p = some (s.due p c) := by
  unfold State.demanded State.due
  split
  · exact hc
  · exact State.ctx_withCtx _ _ _

theorem State.demanded_part (s : State) (p : Pocket) (c : Context) : (s.demanded p c).part = s.part := by
  unfold State.demanded
  split <;> rfl

/-- What the end of a command leaves of an agreement. -/
theorem State.Near.finish (h : w.Near s) : w.finish.offGrant = s.offGrant := w.finish_offGrant.trans h.offGrant

theorem State.Near.finish_ungranted (h : w.Near s) (hg : w.grant = false) : w.finish.offLink = s.offLink :=
  (Work.finish_of_ungranted hg).trans h.view

theorem State.Near.endOp (h : w.Near s) (ha : s.part = .active) (r : Running) : (w.endOp r).Near s.storeFreed := by
  rw [Work.endOp_active (h.part.trans ha)]
  exact h.free

end

end Sys2Proof.Machine
end
section
/-! SUPPORT. START and END_HEAT: what they make of the record, and the start that they want (R25, R27). -/

namespace Sys2Proof.Machine

/-! ### The HEAT exit (R7) -/

/-- A context whose record has left HEAT for COOL, its cool length to be read (R7, R175). -/
def Context.heatLeft (c : Context) : Context :=
  { c.change (fun f => { (if f.reheating then f.endResume else f) with phase := .cool }) with awaitCool := true }

theorem Context.heatLeft_of_plain {c : Context} (h : c.fast.reheating = false) :
    c.heatLeft = { c.change (fun f => { f with phase := .cool }) with awaitCool := true } := by
  simp [Context.heatLeft, Context.change, h]

theorem State.due_fast (s : State) (p : Pocket) (c : Context) : (s.due p c).fast = c.fast := by
  unfold State.due
  split <;> rfl

/-- The state in which the record of `p` has left HEAT, but for its checkpoint. -/
def State.heatExited (s : State) (p : Pocket) (c : Context) : State :=
  ((s.withCtx p (some c.heatLeft)).marked .phase p).markedIf c.fast.reheating .resume p

theorem State.recordIs_of_ctx {s : State} {p : Pocket} {c : Context} (hc : s.ctx p = some c) (f : Fast → Bool) : s.recordIs p f = f c.fast := by
  simp [State.recordIs, hc]

theorem State.ctx_marked (s : State) (k : PocketEvent) (p q : Pocket) : (s.marked k p).ctx q = s.ctx q := rfl

theorem State.ctx_markedIf (s : State) (b : Bool) (k : PocketEvent) (p q : Pocket) : (s.markedIf b k p).ctx q = s.ctx q := by
  cases b <;> rfl

theorem State.part_markedIf (s : State) (b : Bool) (k : PocketEvent) (p : Pocket) : (s.markedIf b k p).part = s.part := by cases b <;> rfl

theorem State.heatExited_ctx (s : State) (p : Pocket) (c : Context) : (s.heatExited p c).ctx p = some c.heatLeft :=
  (State.ctx_markedIf _ _ _ _ _).trans (State.ctx_withCtx _ _ _)

theorem State.heatExited_part (s : State) (p : Pocket) (c : Context) : (s.heatExited p c).part = s.part := State.part_markedIf _ _ _ _

theorem State.Near.heatExit {w : Work} {s : State} {p : Pocket} {c : Context} (h : w.Near s) (ha : s.part = .active) (hc : s.ctx p = some c) :
    (w.heatExit p).Near ((s.heatExited p c).demanded p c.heatLeft) := by
  have reheating : w.recordIs p (·.reheating) = c.fast.reheating := State.recordIs_of_ctx ((h.ctx p).trans hc) _
  unfold Work.heatExit
  dsimp only
  rw [reheating]
  have left := ((h.onCtx hc fun c => c.heatLeft).mark .phase p).markIf c.fast.reheating .resume p
  exact (((left.releaseHeat p).demandRead p .heatExit).demandCheckpoint ((State.heatExited_part s p c).trans ha) (State.heatExited_ctx s p c)).rederive p

/-! ### Starts wanted -/

/-- The request level of a record follows from its status and its level alone (R16). -/
theorem State.requestLevel_of_fast {s t : State} {p : Pocket} {c d : Context} (hc : s.ctx p = some c) (hd : t.ctx p = some d)
    (hs : d.fast.status = c.fast.status) (hl : d.fast.level = c.fast.level) (n : Nat) : t.requestLevel p n = s.requestLevel p n := by
  simp only [State.requestLevel, hc, hd, hs, hl]

theorem State.requestLevel_plain {s : State} {p : Pocket} {c : Context} (hc : s.ctx p = some c) (hs : c.fast.status = .none) (n : Nat) :
    s.requestLevel p n = n := by
  simp [State.requestLevel, hc, hs]

/-- A start that is requested is wanted when the operation that requested it has ended. -/
theorem Work.wants_at_end {w : Work} {p : Pocket} (ha : w.part = .active) (n : Nat) (b : Result) (bytes : List Byte) (r : Running) :
    (((((w.makeRequest p n).rederive p).respond b bytes).endOp r).finish).wantsStart p n := by
  refine Work.finish_wants ?_
  have part : (((w.makeRequest p n).rederive p).respond b bytes).part = .active :=
    (congrArg State.part (((w.makeRequest p n).rederive_offLink p).trans (w.makeRequest_offLink p n)) :).trans ha
  rw [Work.endOp_active part]
  exact wantsStart_of_arb (Work.rederive_arb _ _) (Work.makeRequest_wants w p n)

/-- The answer to a request whose work led to the state `s` with a checkpoint demanded (R61). -/
theorem State.offGrant_demanded_replied {s : State} {p : Pocket} {c : Context} (hc : s.ctx p = some c) (b : Result) (bytes : List Byte) :
    (((s.demanded p c).replied b bytes).storeFreed).offGrant = State.offGrant (((s.withCtx p (some (s.due p c))).replied b bytes).storeFreed) :=
  State.offGrant_of_offLink (congrArg (fun t : State => (t.replied b bytes).storeFreed) (State.demanded_offLink hc) :)

/-- START, when the record is left in the state `s` with a checkpoint demanded. -/
theorem start_ends {w : Work} {s : State} {p : Pocket} {c : Context} (h : w.Near (s.demanded p c)) (ha : s.part = .active) (hc : s.ctx p = some c)
    (n : Nat) (r : Running) :
    (((((w.makeRequest p n).rederive p).respond .ok []).endOp r).finish).offGrant =
      State.offGrant (((s.withCtx p (some (s.due p c))).replied .ok []).storeFreed) ∧
    (((((w.makeRequest p n).rederive p).respond .ok []).endOp r).finish).wantsStart p n := by
  have part := (State.demanded_part s p c).trans ha
  exact ⟨((((h.makeRequest p n).rederive p).respond .ok []).endOp part r).finish.trans (State.offGrant_demanded_replied hc .ok []),
    Work.wants_at_end (h.part.trans part) n _ _ _⟩

/-- Settles O14. -/
theorem startSetsTheLoadGoing : Obligations.StartSetsTheLoadGoing := by
  unfold Obligations.StartSetsTheLoadGoing
  intro p c s h hp
  obtain ⟨r, hexec⟩ := exec_translationReadEnd_of_reaches h (fun _ _ => HostReq.noConfusion) fun pending => absurd pending hp
  obtain ⟨⟨_, ⟨_, ha, _⟩, _⟩, hc⟩ := h
  rw [hexec, Work.onRecord]
  generalize hw : Work.begin { s with ctl := { s.ctl with current := some r } } = w
  have near : w.Near { s with ctl := { s.ctl with current := some r } } := hw ▸ State.Near.refl _
  have ctx : w.ctx p = some c := (near.ctx p).trans hc
  have level : w.requestLevel p 7 = s.requestLevel p 7 := State.requestLevel_of_fast hc ctx rfl rfl 7
  refine ⟨fun staged free heat => ?_, fun staged free heat status => ?_, fun phase held => ?_, fun other => ?_⟩
  · rw [Work.takeStart]
    dsimp only
    rw [if_pos ⟨staged, free⟩, if_neg heat]
    have left := (((near.onFast hc fun f => { f with phase := .heat }).mark .phase p).demandCheckpoint ha (State.ctx_withCtx _ _ _))
    have same : (((w.onFast p fun f => { f with phase := .heat }).mark .phase p).demandCheckpoint p).requestLevel p 7 = s.requestLevel p 7 :=
      State.requestLevel_of_fast hc ((left.ctx p).trans (State.demanded_ctx (State.ctx_withCtx _ _ _))) (by rw [State.due_fast]; rfl)
        (by rw [State.due_fast]; rfl) 7
    rw [same]
    obtain ⟨view, wants⟩ := start_ends left ha (State.ctx_withCtx _ _ _) (s.requestLevel p 7) r
    refine ⟨_, rfl, view.trans ?_, wants⟩
    simp only [State.marked, State.withCtx, upd_upd]
    rfl
  · rw [Work.takeStart]
    dsimp only
    rw [if_pos ⟨staged, free⟩, if_pos heat]
    have left := (near.onFast hc fun f => { f with phase := .heat }).heatExit ha (State.ctx_withCtx _ _ _)
    have plain : (c.change fun f => { f with phase := .heat }).fast.reheating = false := by
      show Fast.reheating { c.fast with phase := .heat } = false
      simp [Fast.reheating, status]
    have same : ((w.onFast p fun f => { f with phase := .heat }).heatExit p).requestLevel p 7 = 7 := by
      refine State.requestLevel_plain ((left.ctx p).trans (State.demanded_ctx (State.heatExited_ctx _ _ _))) ?_ 7
      rw [State.due_fast, Context.heatLeft_of_plain plain]
      exact status
    rw [same]
    obtain ⟨view, wants⟩ := start_ends left ((State.heatExited_part _ _ _).trans ha) (State.heatExited_ctx _ _ _) 7 r
    refine ⟨_, rfl, view.trans ?_, wants⟩
    rw [State.heatExited, plain, Context.heatLeft_of_plain plain]
    simp only [State.markedIf, State.marked, State.withCtx, upd_upd, Bool.false_eq_true, if_false]
    rfl
  · have waits : (c.fast.hold == .door || c.fast.hold == .resumeAsk || c.fast.hold == .heatFault ||
        (c.fast.hold == .link && (w.pocketLink p).state == .online)) = true := by
      subst hw
      rcases held with h | h | h | ⟨h, online⟩
      · simp [h]
      · simp [h]
      · simp [h]
      · simp only [h, Bool.or_eq_true, Bool.and_eq_true, beq_self_eq_true]
        exact .inr ⟨trivial, beq_iff_eq.2 (by exact online)⟩
    rw [Work.takeStart]
    dsimp only
    rw [if_neg (by simp [phase]), if_pos ⟨phase, waits⟩]
    have left := (((near.onFast hc fun f => { f with hold := .none }).mark .hold p).demandCheckpoint ha (State.ctx_withCtx _ _ _))
    have same : (((w.onFast p fun f => { f with hold := .none }).mark .hold p).demandCheckpoint p).requestLevel p 7 = s.requestLevel p 7 :=
      State.requestLevel_of_fast hc ((left.ctx p).trans (State.demanded_ctx (State.ctx_withCtx _ _ _))) (by rw [State.due_fast]; rfl)
        (by rw [State.due_fast]; rfl) 7
    rw [same]
    obtain ⟨view, wants⟩ := start_ends left ha (State.ctx_withCtx _ _ _) (s.requestLevel p 7) r
    refine ⟨_, rfl, view.trans ?_, wants⟩
    simp only [State.marked, State.withCtx, upd_upd]
    rfl
  · have refused : w.takeStart p c = w.respond .state [] := by
      subst hw
      unfold Work.takeStart
      dsimp only
      rw [if_neg, if_neg]
      · rintro ⟨heat, held⟩
        rcases other with h | h | h | ⟨-, h⟩ | ⟨-, h⟩ | ⟨-, h, offline⟩
        · simp [h] at heat
        · simp [h] at heat
        · simp [h] at heat
        · simp [h] at held
        · simp [h] at held
        · have linked : (HoldCause.link == .door || HoldCause.link == .resumeAsk || HoldCause.link == .heatFault ||
              (HoldCause.link == .link && (s.pocketLink p).state == .online)) = true := h ▸ held
          exact offline (by simpa using linked)
      · rintro ⟨staged, -⟩
        rcases other with h | h | h | ⟨h, -⟩ | ⟨h, -⟩ | ⟨h, -, -⟩ <;> simp [h] at staged
    rw [refused, ← hw, Work.respond_endOp_finish ha]

end Sys2Proof.Machine
end
section
/-! SUPPORT. A pocket that holds no reservation and stands in no wait list, and END_HEAT, which leaves it so (R27, R129, R130). -/

namespace Sys2Proof.Machine

/-! ### A pocket without a reservation -/

/-- The pocket holds no reservation and stands in no wait list. -/
def State.reservesNothing (s : State) (p : Pocket) : Prop := s.hasReservation p = false ∧ ∀ x, p ∉ s.waitList x

theorem State.reservesNothing_of_heat {s t : State} {p : Pocket} (h : t.heat = s.heat) (hs : s.reservesNothing p) : t.reservesNothing p := by
  unfold State.reservesNothing State.hasReservation State.waitList at *
  rw [h]
  exact hs

section
variable {w : Work} {p : Pocket}

theorem Work.waitList_setWaitList (w : Work) (x y : SupplyPhase) (l : List Pocket) :
    (w.setWaitList x l).waitList y = if y = x then l else w.waitList y := by
  cases x <;> cases y <;> rfl

theorem Work.demandRead_heat (w : Work) (q : Pocket) (why : ReadPurpose) : (w.demandRead q why).heat = w.heat := by
  unfold Work.demandRead
  split <;> rfl

theorem Work.join_heat (w : Work) (q : Pocket) (k : CommandKind) : (w.join q k).heat = w.heat := by
  unfold Work.join
  split <;> rfl

theorem Work.demandCheckpoint_heat (w : Work) (q : Pocket) : (w.demandCheckpoint q).heat = w.heat := by
  unfold Work.demandCheckpoint Work.onCtx
  split
  · rfl
  · split <;> rfl

theorem Work.endAuthority_heat (w : Work) (q : Pocket) : (w.endAuthority q).heat = w.heat := by
  unfold Work.endAuthority
  split
  · exact Work.removeEntries_heat _ _
  · rfl

theorem Work.convergeMotor_heat (w : Work) (q : Pocket) : (w.convergeMotor q).heat = w.heat := by
  unfold Work.convergeMotor Work.postStop Work.postRun
  repeat' split
  all_goals simp [Work.join_heat]

theorem Work.convergeLevel_heat (w : Work) (q : Pocket) : (w.convergeLevel q).heat = w.heat := by
  unfold Work.convergeLevel Work.postHeatOn
  repeat' split
  all_goals simp [Work.join_heat, Work.demandRead_heat]

theorem State.reservesNothing.releaseReservation (h : w.reservesNothing p) (q : Pocket) : (w.releaseReservation q).reservesNothing p := by
  unfold Work.releaseReservation
  split
  · refine ⟨?_, h.2⟩
    show ((upd w.heat.reserved q none)[p]).isSome = false
    by_cases e : p = q
    · subst e
      rw [upd_self]
      rfl
    · rw [upd_other _ _ e]
      exact h.1
  · exact h

theorem State.reservesNothing.convergeOne (h : w.reservesNothing p) (q : Pocket) : (w.convergeOne q).reservesNothing p := by
  unfold Work.convergeOne
  split
  · have motor : (w.convergeMotor q).reservesNothing p := State.reservesNothing_of_heat (Work.convergeMotor_heat w q) h
    unfold Work.convergeHeat
    split
    · unfold Work.postHeatOff
      split
      · refine State.reservesNothing.releaseReservation (State.reservesNothing_of_heat ?_ motor) q
        simp [Work.join_heat]
      · exact motor
    · split
      · refine State.reservesNothing_of_heat (Work.convergeLevel_heat _ q) ?_
        split <;> exact motor
      · exact motor
  · exact h

/-- A pocket out of every wait list is not served at a command's end. -/
theorem State.reservesNothing_kept (p : Pocket) : KeptAtEnd fun s => s.reservesNothing p where
  converge w q h := h.convergeOne q
  probe w q _ h := by
    refine State.reservesNothing_of_heat ?_ h
    unfold Work.postProbe
    split <;> simp [Work.join_heat]
  serve w x q r hl h := by
    have other : p ≠ q := by
      rintro rfl
      exact h.2 x (by rw [hl]; exact List.mem_cons_self ..)
    refine ⟨?_, fun y hy => ?_⟩
    · show ((upd w.heat.reserved q (some (w.draw q)))[p]).isSome = false
      rw [upd_other _ _ other]
      exact h.1
    · have out := h.2 x
      rw [hl] at out
      have stays : p ∈ (w.setWaitList x r).waitList y := by cases x <;> exact hy
      rw [Work.waitList_setWaitList] at stays
      split at stays
      · exact out (List.mem_cons_of_mem _ stays)
      · exact h.2 y stays
  grant w q n _ h := State.reservesNothing_of_heat (Work.granted_heat w q n) h

theorem State.reservesNothing.rederive (h : w.reservesNothing p) (q : Pocket) : (w.rederive q).reservesNothing p := by
  unfold Work.rederive
  dsimp only
  have converged := (State.reservesNothing_kept p).convergeAll h q
  split
  · exact converged
  · exact State.reservesNothing_of_heat (Work.endAuthority_heat _ q) converged

/-- A pocket that loses its reservation and its place in the list of its own supply phase is left with neither (R129, R130). -/
theorem Work.releaseHeat_reservesNothing (h : w.waitsOnItsPhase p) : (w.releaseHeat p).reservesNothing p := by
  have released : (w.releaseReservation p).hasReservation p = false ∧ (∀ x, (w.releaseReservation p).waitList x = w.waitList x) ∧
      (w.releaseReservation p).phaseOf p = w.phaseOf p := by
    unfold Work.releaseReservation
    split
    · refine ⟨?_, fun x => rfl, rfl⟩
      show ((upd w.heat.reserved p none)[p]).isSome = false
      rw [upd_self]
      rfl
    · rename_i held
      exact ⟨Bool.eq_false_of_not_eq_true held, fun x => rfl, rfl⟩
  obtain ⟨free, lists, phase⟩ := released
  unfold Work.releaseHeat Work.leaveWaitList
  dsimp only
  rw [phase, lists]
  split
  · refine ⟨?_, fun y hy => ?_⟩
    · cases w.phaseOf p <;> exact free
    · have stays : p ∈ ((w.releaseReservation p).setWaitList (w.phaseOf p) ((w.waitList (w.phaseOf p)).filter (· != p))).waitList y := hy
      rw [Work.waitList_setWaitList, lists] at stays
      split at stays
      · simpa using (List.mem_filter.1 stays).2
      · exact h y ‹_› stays
  · rename_i out
    refine ⟨free, fun y hy => ?_⟩
    rw [lists] at hy
    by_cases e : y = w.phaseOf p
    · exact out (by simpa [e] using hy)
    · exact h y e hy

/-- A HEAT exit leaves the pocket without a reservation (R7). -/
theorem Work.heatExit_reservesNothing (h : w.waitsOnItsPhase p) : (w.heatExit p).reservesNothing p := by
  unfold Work.heatExit
  dsimp only
  have marked (b : Bool) (v : Work) (hv : v.waitsOnItsPhase p) : (if b = true then v.mark .resume p else v).waitsOnItsPhase p := by
    cases b <;> exact hv
  have left (f : Context → Context) : (w.onCtx p f).waitsOnItsPhase p := by
    unfold Work.onCtx
    split <;> exact h
  refine State.reservesNothing.rederive (State.reservesNothing_of_heat (Work.demandCheckpoint_heat _ p) ?_) p
  exact State.reservesNothing_of_heat (Work.demandRead_heat _ p .heatExit) (Work.releaseHeat_reservesNothing (marked _ _ (left _)))

theorem Work.makeRequest_heat (w : Work) (q : Pocket) (n : Nat) : (w.makeRequest q n).heat = w.heat := by
  unfold Work.makeRequest
  repeat' split
  all_goals rfl

end

/-! ### END_HEAT (R27) -/

theorem State.wantsStart.mono {s : State} {p : Pocket} {m n : Nat} (h : m ≤ n) (hs : s.wantsStart p n) : s.wantsStart p m :=
  hs.imp (fun ⟨k, hk, hr⟩ => ⟨k, h.trans hk, hr⟩) id

theorem State.withCtx_markedIf (s : State) (b : Bool) (k : PocketEvent) (p q : Pocket) (c : Option Context) :
    (s.markedIf b k q).withCtx p c = (s.withCtx p c).markedIf b k q := by cases b <;> rfl

theorem State.due_markedIf (s : State) (b : Bool) (k : PocketEvent) (p q : Pocket) (c : Context) : (s.markedIf b k q).due p c = s.due p c := by
  cases b <;> rfl

theorem State.due_of_queue {s t : State} (h : t.ctl.queue = s.ctl.queue) (p : Pocket) (c : Context) : t.due p c = s.due p c := by
  unfold State.due State.checkpointQueued
  rw [h]

theorem State.storeFreed_markedIf (s : State) (b : Bool) (k : PocketEvent) (p : Pocket) :
    (s.markedIf b k p).storeFreed = s.storeFreed.markedIf b k p := by cases b <;> rfl

theorem State.storeFreed_marked (s : State) (k : PocketEvent) (p : Pocket) : (s.marked k p).storeFreed = s.storeFreed.marked k p := rfl

theorem State.storeFreed_replied (s : State) (b : Result) (bytes : List Byte) : (s.replied b bytes).storeFreed = s.storeFreed.replied b bytes := rfl

theorem State.storeFreed_withCtx (s : State) (p : Pocket) (c : Option Context) : (s.withCtx p c).storeFreed = s.storeFreed.withCtx p c := rfl

/-- The holds that END_HEAT clears (R27), and the context without one. -/
def Context.heatHeld (c : Context) : Bool := c.fast.hold == .resumeAsk || c.fast.hold == .heatFault

def Context.heatFree (c : Context) : Context := if c.heatHeld = true then c.change fun f => { f with hold := .none } else c

def Work.freeHeat (w : Work) (p : Pocket) (b : Bool) : Work :=
  if b = true then (w.onFast p fun f => { f with hold := .none }).mark .hold p else w

theorem State.Near.freeHeat {w : Work} {s : State} {p : Pocket} {c : Context} (h : w.Near s) (hc : s.ctx p = some c) :
    (w.freeHeat p c.heatHeld).Near ((s.withCtx p (some c.heatFree)).markedIf c.heatHeld .hold p) := by
  unfold Context.heatFree Work.freeHeat
  cases c.heatHeld with
  | false =>
    have same : s.withCtx p (some c) = s := State.withCtx_of_ctx hc
    exact same.symm ▸ h
  | true => exact (h.onFast hc _).mark .hold p

theorem Work.freeHeat_waitsOnItsPhase {w : Work} {p : Pocket} (h : w.waitsOnItsPhase p) (b : Bool) : (w.freeHeat p b).waitsOnItsPhase p := by
  unfold Work.freeHeat Work.onFast Work.onCtx
  repeat' split
  all_goals exact h

/-- The HEAT exit of a record, once its checkpoint has been demanded. -/
theorem State.heatExited_due (s : State) (p : Pocket) (c : Context) :
    (s.heatExited p c).withCtx p (some ((s.heatExited p c).due p c.heatLeft)) =
      ((s.withCtx p (some (s.due p c.heatLeft))).marked .phase p).markedIf c.fast.reheating .resume p := by
  rw [State.heatExited, State.withCtx_markedIf, State.due_markedIf]
  exact congrArg (State.markedIf · _ .resume p) (congrArg (State.marked · .phase p) (State.withCtx_withCtx s p _ _))

theorem Work.takeEndHeat_of_heat {w : Work} {p : Pocket} {c : Context} (heat : c.fast.phase = .heat) :
    w.takeEndHeat p c =
      (Work.rederive (if c.heatHeld = true then ((w.freeHeat p c.heatHeld).heatExit p).makeRequest p
        (((w.freeHeat p c.heatHeld).heatExit p).requestLevel p 7) else (w.freeHeat p c.heatHeld).heatExit p) p).respond .ok [] := by
  rw [Work.takeEndHeat, if_pos heat]
  rfl

/-- What END_HEAT of a record in HEAT leaves (R27). -/
theorem endHeat_ends {w : Work} {s : State} {p : Pocket} {c : Context} (near : w.Near s) (ha : s.part = .active) (hc : s.ctx p = some c)
    (place : w.waitsOnItsPhase p) (heat : c.fast.phase = .heat) (r : Running) :
    ((w.takeEndHeat p c).endOp r).finish.offGrant = State.offGrant (((((s.storeFreed.withCtx p (some (s.due p c.heatFree.heatLeft))).markedIf c.heatHeld .hold p).marked
      .phase p).markedIf c.heatFree.fast.reheating .resume p).replied .ok []) ∧
    ((w.takeEndHeat p c).endOp r).finish.reservesNothing p ∧ (c.heatHeld = true → ((w.takeEndHeat p c).endOp r).finish.wantsStart p 0) := by
  have held := (State.ctx_markedIf (s.withCtx p (some c.heatFree)) c.heatHeld .hold p p).trans (State.ctx_withCtx _ _ _)
  have part := (State.part_markedIf (s.withCtx p (some c.heatFree)) c.heatHeld .hold p).trans ha
  have left := (near.freeHeat hc).heatExit part held
  have free := Work.heatExit_reservesNothing (Work.freeHeat_waitsOnItsPhase place c.heatHeld)
  have heated := (State.heatExited_part _ p c.heatFree).trans part
  rw [Work.takeEndHeat_of_heat heat]
  generalize (w.freeHeat p c.heatHeld).heatExit p = v at left free
  have asked : (if c.heatHeld = true then v.makeRequest p (v.requestLevel p 7) else v).Near
      (((((s.withCtx p (some c.heatFree)).markedIf c.heatHeld .hold p).heatExited p c.heatFree).demanded p c.heatFree.heatLeft)) := by
    split
    · exact left.makeRequest p _
    · exact left
  have waits : (if c.heatHeld = true then v.makeRequest p (v.requestLevel p 7) else v).reservesNothing p := by
    split
    · exact State.reservesNothing_of_heat (Work.makeRequest_heat _ _ _) free
    · exact free
  have active := (State.demanded_part _ p c.heatFree.heatLeft).trans heated
  refine ⟨?_, ?_, fun h => ?_⟩
  · refine ((((asked.rederive p).respond .ok []).endOp active r).finish.trans (State.offGrant_demanded_replied (State.heatExited_ctx _ _ _) .ok [])).trans ?_
    rw [State.heatExited_due, State.due_markedIf, State.withCtx_markedIf, State.withCtx_withCtx, State.storeFreed_replied,
      State.storeFreed_markedIf, State.storeFreed_marked, State.storeFreed_markedIf]
    rfl
  · rw [Work.endOp_active (((asked.rederive p).respond .ok []).part.trans active)]
    exact (State.reservesNothing_kept p).finish (State.reservesNothing_of_heat (by rfl) (waits.rederive p))
  · rw [if_pos h]
    exact (Work.wants_at_end (left.part.trans active) _ _ _ _).mono (Nat.zero_le _)

theorem Context.heatFree_reheating (c : Context) : c.heatFree.fast.reheating = c.fast.reheating := by
  unfold Context.heatFree
  split <;> rfl

/-- Settles O16. -/
theorem endHeatGoesToCool : Obligations.EndHeatGoesToCool := by
  unfold Obligations.EndHeatGoesToCool
  intro p c s h hp waits clears c1 c2
  obtain ⟨r, hexec⟩ := exec_translationReadEnd_of_reaches h (fun _ _ => HostReq.noConfusion) fun pending => absurd pending hp
  obtain ⟨⟨_, ⟨_, ha, _⟩, _⟩, hc⟩ := h
  rw [hexec, Work.onRecord]
  refine ⟨fun heat => ?_, fun other => ?_⟩
  · obtain ⟨view, free, wants⟩ := endHeat_ends (State.Near.refl { s with ctl := { s.ctl with current := some r } })
      (w := Work.begin { s with ctl := { s.ctl with current := some r } }) ha hc waits heat r
    rw [Context.heatFree_reheating] at view
    exact ⟨_, rfl, view, free.1, wants⟩
  · rw [Work.takeEndHeat, if_neg other, Work.respond_endOp_finish ha]

end Sys2Proof.Machine
end
section
/-! SUPPORT. What a run of convergence posts for a pocket whose motor or heat is no longer desired stands until the end of the
command, and so do the static reads and checkpoints that wait (R40, R94, R96). -/

namespace Sys2Proof.Machine

/-! ### Static reads that join the operation queue (R22) -/

/-- A waiting operation, joined by a further purpose when it is the static read of the record. -/
def StoreOp.widened (op : StoreOp) (p : Pocket) (why : ReadPurpose) : StoreOp :=
  match op with
  | .staticRead q ps => if q = p then .staticRead q (if ps.contains why then ps else ps ++ [why]) else op
  | _ => op

/-- The operation queue after a static read has been demanded. -/
def joinRead (l : List StoreOp) (p : Pocket) (why : ReadPurpose) : List StoreOp :=
  if l.any (·.isReadOf p) then l.map (·.widened p why) else l ++ [.staticRead p [why]]

theorem Work.demandRead_queue (w : Work) (p : Pocket) (why : ReadPurpose) : (w.demandRead p why).ctl.queue = joinRead w.ctl.queue p why := by
  unfold Work.demandRead joinRead
  split <;> rfl

theorem StoreOp.widened_read (p q : Pocket) (ps : List ReadPurpose) (why : ReadPurpose) :
    ∃ more, StoreOp.widened (.staticRead q ps) p why = .staticRead q (ps ++ more) := by
  unfold StoreOp.widened
  dsimp only
  split
  · split
    · exact ⟨[], by simp⟩
    · exact ⟨[why], rfl⟩
  · exact ⟨[], by simp⟩

/-- A static read of the record of `p` waits that serves `x` among its purposes. -/
def readWaits (p : Pocket) (x : ReadPurpose) (l : List StoreOp) : Prop := ∃ why, .staticRead p why ∈ l ∧ x ∈ why

/-- Behind a static read of the record of `p` that serves `x` its checkpoint waits. -/
def readLeads (p : Pocket) (x : ReadPurpose) (l : List StoreOp) : Prop :=
  ∃ before why after, l = before ++ .staticRead p why :: after ∧ x ∈ why ∧ .checkpoint p ∈ after

theorem readWaits_joinRead {p q : Pocket} {x why : ReadPurpose} {l : List StoreOp} (h : readWaits p x l) : readWaits p x (joinRead l q why) := by
  obtain ⟨ws, read, serves⟩ := h
  unfold joinRead
  split
  · obtain ⟨more, is⟩ := StoreOp.widened_read q p ws why
    exact ⟨ws ++ more, List.mem_map.2 ⟨_, read, is⟩, List.mem_append_left _ serves⟩
  · exact ⟨ws, List.mem_append_left _ read, serves⟩

theorem readLeads_joinRead {p q : Pocket} {x why : ReadPurpose} {l : List StoreOp} (h : readLeads p x l) : readLeads p x (joinRead l q why) := by
  obtain ⟨before, ws, after, rfl, serves, waits⟩ := h
  unfold joinRead
  split
  · obtain ⟨more, is⟩ := StoreOp.widened_read q p ws why
    exact ⟨before.map (·.widened q why), ws ++ more, after.map (·.widened q why), by simp [is], List.mem_append_left _ serves,
      List.mem_map.2 ⟨_, waits, rfl⟩⟩
  · exact ⟨before, ws, after ++ [.staticRead q [why]], by simp, serves, List.mem_append_left _ waits⟩

theorem Work.demandRead_waits (w : Work) (p : Pocket) (x : ReadPurpose) : readWaits p x (w.demandRead p x).ctl.queue := by
  rw [Work.demandRead_queue, joinRead]
  split
  · rename_i waits
    obtain ⟨op, hop, is⟩ := List.any_eq_true.1 waits
    cases op with
    | staticRead q ws =>
      obtain rfl : q = p := by simpa [StoreOp.isReadOf] using is
      refine ⟨_, List.mem_map.2 ⟨_, hop, if_pos rfl⟩, ?_⟩
      split
      · exact List.elem_iff.1 ‹_›
      · exact List.mem_append_right _ (List.mem_singleton.2 rfl)
    | _ => simp [StoreOp.isReadOf] at is
  · exact ⟨[x], List.mem_append_right _ (List.mem_singleton.2 rfl), List.mem_singleton.2 rfl⟩

theorem readWaits_append {p : Pocket} {x : ReadPurpose} {l : List StoreOp} (h : readWaits p x l) (op : StoreOp) : readWaits p x (l ++ [op]) := by
  obtain ⟨ws, read, serves⟩ := h
  exact ⟨ws, List.mem_append_left _ read, serves⟩

theorem readLeads_of_waits {p : Pocket} {x : ReadPurpose} {l : List StoreOp} (h : readWaits p x l) : readLeads p x (l ++ [.checkpoint p]) := by
  obtain ⟨ws, read, serves⟩ := h
  obtain ⟨before, after, rfl⟩ := List.append_of_mem read
  exact ⟨before, ws, after ++ [.checkpoint p], by simp, serves, List.mem_append_right _ (List.mem_singleton.2 rfl)⟩

/-- Convergence leaves the operation queue, but that a heat that is desired may demand the read of its level (R22). -/
theorem Work.convergeOne_queue (w : Work) (q : Pocket) :
    (w.convergeOne q).ctl.queue = w.ctl.queue ∨ (w.heatDesired q = true ∧ (w.convergeOne q).ctl.queue = joinRead w.ctl.queue q .heatLevel) := by
  have motor : (w.convergeMotor q).ctl = w.ctl := by
    unfold Work.convergeMotor Work.postStop Work.postRun Work.join
    repeat' split
    all_goals simp
  have level (v : Work) : (v.convergeLevel q).ctl.queue = v.ctl.queue ∨ (v.convergeLevel q).ctl.queue = joinRead v.ctl.queue q .heatLevel := by
    unfold Work.convergeLevel Work.postHeatOn Work.join
    repeat' split
    all_goals simp [Work.demandRead_queue]
  unfold Work.convergeOne
  split
  · rw [← Work.heatDesired_convergeMotor, ← motor]
    generalize w.convergeMotor q = v
    unfold Work.convergeHeat
    split
    · unfold Work.postHeatOff Work.releaseReservation Work.join
      left
      repeat' split
      all_goals simp
    · split
      · next desired =>
        rcases level (if (v.pocketLink q).heatLost then v.onLink q fun l => { l with heatLost := false } else v) with h | h <;>
          rw [h] <;> split <;> simp [desired]
      · exact .inl rfl
  · exact .inl rfl

theorem Work.postProbe_ctl (w : Work) (q : Pocket) : (w.postProbe q).ctl = w.ctl := by
  unfold Work.postProbe Work.join
  repeat' split
  all_goals rfl

section
variable {P : List StoreOp → Prop} (joins : ∀ l q, P l → P (joinRead l q .heatLevel))
include joins

/-- What static reads that join the operation queue keep of it is kept by the end of a command. -/
theorem KeptAtEnd.of_joinRead : KeptAtEnd fun s => P s.ctl.queue where
  converge w q h := by
    rcases w.convergeOne_queue q with e | ⟨-, e⟩ <;> rw [e]
    · exact h
    · exact joins _ q h
  probe w q _ h := by
    rw [Work.postProbe_ctl]
    exact h
  serve w x q r _ h := by cases x <;> exact h
  grant w q n _ h := by
    rw [Work.granted_ctl]
    exact h

end

/-! ### The end of the RUN authority -/

theorem Work.endAuthority_ctl (w : Work) (p : Pocket) : (w.endAuthority p).ctl = w.ctl := by
  unfold Work.endAuthority
  split
  · exact Work.removeEntries_ctl _ _
  · rfl

/-- The RUN authority of a motor that is not desired ends with its RUN that waits. -/
theorem Work.endAuthority_posts {w : Work} (free : w.noneOwed) (q : Pocket) (h : Bool) : State.Posts false h q w.toState (w.endAuthority q).toState := by
  unfold Work.endAuthority
  split
  · have noted : State.Posts false h q w.toState (w.onLink q fun l => { l with runAuthority := false }).toState :=
      Work.onLink_posts w (fun _ => rfl) (fun _ => rfl) (fun _ h => h) (fun _ h => h)
    exact noted.trans (Work.removeEntries_posts (State.noneOwed_of_posts noted free) (.inl ⟨rfl, rfl⟩))
  · exact .refl _

/-- What is kept at the end of a command and by the end of a RUN authority is kept when the desired state is derived again. -/
theorem KeptAtEnd.rederive {P : State → Prop} (K : KeptAtEnd P) {w : Work} {p : Pocket} (h : P (w.convergeOne p).toState)
    (ends : ∀ v : Work, P v.toState → v.motorDesired p = false → P (v.endAuthority p).toState) : P (w.rederive p).toState := by
  unfold Work.rederive
  dsimp only
  split
  · exact K.admitHeld h
  · next off => exact ends _ (K.admitHeld h) (Bool.eq_false_of_not_eq_true off)

/-! ### STOP and HEAT_OFF stand -/

/-- The record of the pocket, if it has one, is in no HEAT. -/
def State.cold (s : State) (p : Pocket) : Prop := ∀ c, s.ctx p = some c → c.fast.phase ≠ .heat

theorem State.cold.heatDesired {s : State} {p : Pocket} (h : s.cold p) : s.heatDesired p = false := by
  unfold State.heatDesired
  split
  · rfl
  · next c hc => simp [h c hc]

theorem State.cold_of_fast {s t : State} {p : Pocket} (e : (t.ctx p).map (·.fast) = (s.ctx p).map (·.fast)) (h : s.cold p) : t.cold p := by
  intro d hd
  rw [hd] at e
  cases hc : s.ctx p with
  | none =>
    rw [hc] at e
    simp at e
  | some c =>
    rw [hc] at e
    have same : d.fast = c.fast := Option.some.inj e
    rw [same]
    exact h c hc

theorem State.cold_of_offLink {s t : State} {p : Pocket} (e : t.offLink = s.offLink) (h : s.cold p) : t.cold p :=
  State.cold_of_fast (by unfold State.ctx; rw [State.ctxs_of_offLink e]) h

theorem Work.granted_stands {w : Work} {p : Pocket} (q : Pocket) (n : Nat) :
    (w.turnedOff p → (w.granted q n).turnedOff p) ∧ (w.stopped p → (w.granted q n).stopped p) := by
  have posted := w.granted_pocketLink q n p (f := PocketLink.heatOffPosted) fun _ _ => rfl
  have posted' := w.granted_pocketLink q n p (f := PocketLink.stopPosted) fun _ _ => rfl
  unfold State.turnedOff State.stopped State.queued
  rw [posted, posted', Work.granted_queue]
  exact ⟨id, id⟩

/-- A HEAT_OFF that has been posted stands at the end of the command when the record is not in HEAT. -/
theorem State.turnedOff_kept (p : Pocket) : KeptAtEnd fun s => s.noneOwed ∧ (s.cold p ∧ s.turnedOff p) := by
  refine KeptAtEnd.of_posts (fun s t q ⟨cold, off⟩ posts view _ => ?_) (fun s x h => h) (fun w q n _ ⟨cold, off⟩ => ?_)
  · refine ⟨State.cold_of_offLink view cold, State.turnedOff_of_posts posts off ?_⟩
    rintro rfl
    exact cold.heatDesired
  · exact ⟨State.cold_of_fast (w.granted_fast q n p) cold, (Work.granted_stands q n).1 off⟩

/-- A STOP that has been posted stands at the end of the command when the motor is not desired and no start is requested. -/
theorem State.stopped_kept (p : Pocket) : KeptAtEnd fun s => s.noneOwed ∧ (s.motorDesired p = false ∧ s.request p = none ∧ s.stopped p) := by
  refine KeptAtEnd.of_posts (fun s t q ⟨rests, asks, stop⟩ posts view arb => ?_) (fun s x h => h) (fun w q n asked ⟨rests, asks, stop⟩ => ?_)
  · refine ⟨?_, ?_, State.stopped_of_posts posts stop ?_⟩
    · rw [State.motorDesired_of_ctxs (State.ctxs_of_offLink view)]
      exact rests
    · unfold State.request
      rw [arb]
      exact asks
    · rintro rfl
      exact rests
  · have other : p ≠ q := by
      rintro rfl
      rw [asks] at asked
      simp at asked
    refine ⟨?_, ?_, (Work.granted_stands q n).2 stop⟩
    · rw [State.motorDesired_of_ctx (w.granted_ctx_other q n other)]
      exact rests
    · unfold State.request
      rw [Work.granted_arb]
      exact (upd_other _ _ other).trans asks

section
variable {w : Work} {p : Pocket}

/-- A record that has left HEAT has its HEAT_OFF posted when its desired state is derived again (R86, R96). -/
theorem Work.rederive_turnedOff (free : w.noneOwed) (acts : w.converges p = true) (cold : w.cold p) (still : w.convergeMotor p = w)
    (on : (w.pocketLink p).heatBelieved.isSome = true) (admitted : w.admits p .heatOff = true) :
    (w.rederive p).noneOwed ∧ ((w.rederive p).cold p ∧ (w.rederive p).turnedOff p) := by
  have one : w.convergeOne p = w.postHeatOff p := by
    unfold Work.convergeOne Work.convergeHeat
    rw [if_pos acts, still, if_pos (by simp [State.wantsHeatOff, cold.heatDesired, on])]
  refine (State.turnedOff_kept p).rederive ?_ fun v ⟨free, cold, off⟩ _ => ?_
  · rw [one]
    refine ⟨State.noneOwed_of_posts (Work.postHeatOff_posts (m := true) (h := false) (q := p) free rfl) free, ?_, Work.postHeatOff_turnedOff free admitted⟩
    exact State.cold_of_offLink ((congrArg State.offLink (congrArg Work.toState one.symm)).trans (w.convergeOne_offLink p)) cold
  · have posts := Work.endAuthority_posts free p false
    exact ⟨State.noneOwed_of_posts posts free, State.cold_of_offLink (Work.endAuthority_offLink v p) cold, State.turnedOff_of_posts posts off fun _ => rfl⟩

/-- A motor that is no longer desired has its STOP posted when the desired state is derived again (R86, R96). -/
theorem Work.rederive_stopped (free : w.noneOwed) (acts : w.converges p = true) (calls : w.wantsStop p = true) (asks : w.request p = none)
    (admitted : w.admits p .stop = true) :
    (w.rederive p).noneOwed ∧ ((w.rederive p).motorDesired p = false ∧ (w.rederive p).request p = none ∧ (w.rederive p).stopped p) := by
  have rests : w.motorDesired p = false := by
    simp only [State.wantsStop, Bool.and_eq_true, Bool.not_eq_true'] at calls
    exact calls.1
  have motor : w.convergeMotor p = w.postStop p := if_pos calls
  have view := w.convergeOne_offLink p
  have arb := w.convergeOne_arb p
  refine (State.stopped_kept p).rederive ?_ fun v ⟨free, rests, asks, stop⟩ _ => ?_
  · refine ⟨State.noneOwed_of_posts (Work.convergeOne_posts free p) free, ?_, ?_, ?_⟩
    · rw [State.motorDesired_of_ctxs (State.ctxs_of_offLink view)]
      exact rests
    · unfold State.request
      rw [arb]
      exact asks
    · unfold Work.convergeOne
      rw [if_pos acts, motor]
      have posts := Work.postStop_posts (m := false) (h := false) (q := p) free rfl
      exact State.stopped_of_posts (Work.convergeHeat_posts (m := false) (State.noneOwed_of_posts posts free)) (Work.postStop_stopped free admitted) fun _ => rfl
  · have posts := Work.endAuthority_posts free p false
    refine ⟨State.noneOwed_of_posts posts free, ?_, ?_, State.stopped_of_posts posts stop fun _ => rfl⟩
    · rw [State.motorDesired_of_ctxs (State.ctxs_of_offLink (Work.endAuthority_offLink v p))]
      exact rests
    · unfold State.request
      rw [Work.endAuthority_arb]
      exact asks

end

end Sys2Proof.Machine
end
section
/-! SUPPORT. The HEAT exit and the cool exit (R7, R8). -/

namespace Sys2Proof.Machine

section
variable {w : Work} {s : State} {p : Pocket}

theorem Work.demandCheckpoint_link (w : Work) (p : Pocket) : (w.demandCheckpoint p).link = w.link := by
  unfold Work.demandCheckpoint Work.onCtx
  repeat' split
  all_goals rfl

theorem Work.leaveWaitList_link (w : Work) (p : Pocket) : (w.leaveWaitList p).link = w.link := by
  unfold Work.leaveWaitList
  dsimp only
  split
  · cases w.phaseOf p <;> rfl
  · rfl

theorem Work.releaseHeat_link (w : Work) (p : Pocket) : (w.releaseHeat p).link = w.link :=
  (Work.leaveWaitList_link _ p).trans (Work.releaseReservation_link w p)

theorem Work.releaseHeat_queue (w : Work) (p : Pocket) : (w.releaseHeat p).ctl = w.ctl := by
  have released : (w.releaseReservation p).ctl = w.ctl := by
    unfold Work.releaseReservation
    split <;> rfl
  refine Eq.trans ?_ released
  unfold Work.releaseHeat Work.leaveWaitList
  dsimp only
  split
  · cases (w.releaseReservation p).phaseOf p <;> rfl
  · rfl

/-- A checkpoint of the record stands, behind a static read for `x` unless it waited before. -/
def State.exitWaits (s : State) (p : Pocket) (x : ReadPurpose) (before : Bool) : Prop :=
  s.checkpointQueued p = true ∧ readWaits p x s.ctl.queue ∧ (before = false → readLeads p x s.ctl.queue)

/-- A static read and then a checkpoint are demanded. -/
theorem Work.demands_wait (ha : w.part = .active) {c : Context} (hc : w.ctx p = some c) (x : ReadPurpose) :
    ((w.demandRead p x).demandCheckpoint p).exitWaits p x (w.checkpointQueued p) := by
  have queued : (w.demandRead p x).checkpointQueued p = w.checkpointQueued p := State.checkpointQueued_of_duties (w.demandRead_duties p x) p
  have view := w.demandRead_offLink p x
  have part : (w.demandRead p x).part = .active := (congrArg State.part view :).trans ha
  have ctx : (w.demandRead p x).ctx p = some c := by
    unfold State.ctx
    rw [State.ctxs_of_offLink view]
    exact hc
  have waits := w.demandRead_waits p x
  rw [← queued]
  generalize w.demandRead p x = v at *
  by_cases before : v.checkpointQueued p = true
  · rw [Work.demandCheckpoint, if_pos (.inr (.inr (.inr before)))]
    exact ⟨before, waits, fun not => absurd (before.symm.trans not) Bool.noConfusion⟩
  · rw [Work.demandCheckpoint_unqueued part ctx (by simpa using before)]
    refine ⟨?_, readWaits_append waits _, fun _ => readLeads_of_waits waits⟩
    exact List.any_eq_true.2 ⟨.checkpoint p, List.mem_append_right _ (List.mem_singleton.2 rfl), by simp [StoreOp.isCheckpointOf]⟩

theorem checkpointWaits_joinRead {p q : Pocket} {l : List StoreOp} (h : l.any (·.isCheckpointOf p) = true) (why : ReadPurpose) :
    (joinRead l q why).any (·.isCheckpointOf p) = true := by
  obtain ⟨op, hop, is⟩ := List.any_eq_true.1 h
  unfold joinRead
  split
  · refine List.any_eq_true.2 ⟨op.widened q why, List.mem_map.2 ⟨op, hop, rfl⟩, ?_⟩
    cases op with
    | staticRead _ _ => exact absurd is Bool.noConfusion
    | _ => exact is
  · exact List.any_eq_true.2 ⟨op, List.mem_append_left _ hop, is⟩

theorem State.exitWaits_kept (p : Pocket) (x : ReadPurpose) (before : Bool) : KeptAtEnd fun s => s.exitWaits p x before :=
  KeptAtEnd.of_joinRead (P := fun l => l.any (·.isCheckpointOf p) = true ∧ readWaits p x l ∧ (before = false → readLeads p x l))
    fun _ _ ⟨check, waits, leads⟩ => ⟨checkpointWaits_joinRead check _, readWaits_joinRead waits, fun b => readLeads_joinRead (leads b)⟩

theorem State.exitWaits.rederive {x : ReadPurpose} {before : Bool} (h : w.exitWaits p x before) : (w.rederive p).exitWaits p x before := by
  have K := State.exitWaits_kept p x before
  refine K.rederive (K.converge w p h) fun v hv _ => ?_
  have kept := Work.endAuthority_ctl v p
  unfold State.exitWaits State.checkpointQueued at *
  rw [kept]
  exact hv

theorem State.noneOwed_of_link {s t : State} (e : t.link = s.link) (h : s.noneOwed) : t.noneOwed := by
  unfold State.noneOwed State.pocketLink
  rw [e]
  exact h

theorem State.admits_of_link {s t : State} (e : t.link = s.link) (p : Pocket) (k : CommandKind) : t.admits p k = s.admits p k := by
  unfold State.admits State.unsent State.entryCount
  rw [e]

theorem State.pocketLink_of_link {s t : State} (e : t.link = s.link) (p : Pocket) : t.pocketLink p = s.pocketLink p := by
  unfold State.pocketLink
  rw [e]

theorem Work.markIf_link (w : Work) (b : Bool) (k : PocketEvent) (p : Pocket) : (if b = true then w.mark k p else w).link = w.link := by
  cases b <;> rfl

/-! ### The HEAT exit (R7) -/

/-- The HEAT exit before the desired state is derived again. -/
def Work.leaveHeat (w : Work) (p : Pocket) : Work :=
  let v := (w.onCtx p Context.heatLeft).mark .phase p
  let v := if w.recordIs p (·.reheating) then v.mark .resume p else v
  ((v.releaseHeat p).demandRead p .heatExit).demandCheckpoint p

theorem Work.heatExit_eq (w : Work) (p : Pocket) : w.heatExit p = (w.leaveHeat p).rederive p := rfl

theorem Work.leaveHeat_link (w : Work) (p : Pocket) : (w.leaveHeat p).link = w.link := by
  unfold Work.leaveHeat
  rw [Work.demandCheckpoint_link, Work.demandRead_link, Work.releaseHeat_link, Work.markIf_link]
  exact Work.onCtx_link w p _

theorem Work.leaveHeat_waits {c : Context} (ha : w.part = .active) (hc : w.ctx p = some c) :
    (w.leaveHeat p).exitWaits p .heatExit (w.checkpointQueued p) := by
  unfold Work.leaveHeat
  dsimp only
  have left := (((State.Near.refl w.toState).onCtx hc Context.heatLeft).mark .phase p).markIf (w.recordIs p (·.reheating)) .resume p
  have ctl : (if w.recordIs p (·.reheating) = true then ((w.onCtx p Context.heatLeft).mark .phase p).mark .resume p
      else (w.onCtx p Context.heatLeft).mark .phase p).ctl = w.ctl := by
    unfold Work.onCtx
    repeat' split
    all_goals rfl
  generalize (if w.recordIs p (·.reheating) = true then _ else _ : Work) = v at left ctl
  have near := left.releaseHeat p
  have same : (v.releaseHeat p).checkpointQueued p = w.checkpointQueued p := by
    unfold State.checkpointQueued
    rw [Work.releaseHeat_queue, ctl]
  rw [← same]
  exact Work.demands_wait ((near.part.trans (State.part_markedIf _ _ _ _)).trans ha)
    (((near.ctx p).trans (State.ctx_markedIf _ _ _ _ _)).trans (State.ctx_withCtx _ _ _)) _

theorem State.Near.leaveHeat {c : Context} (h : w.Near s) (ha : s.part = .active) (hc : s.ctx p = some c) :
    (w.leaveHeat p).Near ((s.heatExited p c).demanded p c.heatLeft) := by
  have reheating : w.recordIs p (·.reheating) = c.fast.reheating := State.recordIs_of_ctx ((h.ctx p).trans hc) _
  unfold Work.leaveHeat
  dsimp only
  rw [reheating]
  have left := ((h.onCtx hc Context.heatLeft).mark .phase p).markIf c.fast.reheating .resume p
  exact ((left.releaseHeat p).demandRead p .heatExit).demandCheckpoint ((State.heatExited_part s p c).trans ha) (State.heatExited_ctx s p c)

theorem Context.heatLeft_fast (c : Context) : c.heatLeft.fast.phase = .cool ∧ c.heatLeft.fast.hold = c.fast.hold := by
  unfold Context.heatLeft Context.change
  dsimp only
  split <;> exact ⟨rfl, rfl⟩

/-! ### The cool exit (R8) -/

/-- A context whose record has left COOL for CREASE, its crease progress to be set up (R8, R71). -/
def Context.coolLeft (c : Context) : Context := c.change fun f => { f with phase := .crease, progress := none }

/-- The state in which the record of `p` has left COOL, but for its checkpoint. -/
def State.coolExited (s : State) (p : Pocket) (c : Context) : State := (s.withCtx p (some c.coolLeft)).marked .phase p

/-- The cool exit before the desired state is derived again. -/
def Work.leaveCool (w : Work) (p : Pocket) : Work :=
  ((((w.onCtx p Context.coolLeft).mark .phase p).removeRequest p).demandRead p .coolExit).demandCheckpoint p

theorem Work.coolExit_eq (w : Work) (p : Pocket) : w.coolExit p = (w.leaveCool p).rederive p := rfl

theorem Work.leaveCool_link (w : Work) (p : Pocket) : (w.leaveCool p).link = w.link := by
  unfold Work.leaveCool
  rw [Work.demandCheckpoint_link, Work.demandRead_link]
  exact Work.onCtx_link w p _

theorem State.Near.leaveCool {c : Context} (h : w.Near s) (ha : s.part = .active) (hc : s.ctx p = some c) :
    (w.leaveCool p).Near ((s.coolExited p c).demanded p c.coolLeft) :=
  ((((h.onCtx hc Context.coolLeft).mark .phase p).removeRequest p).demandRead p .coolExit).demandCheckpoint ha (State.ctx_withCtx _ _ _)

theorem State.Near.coolExit {c : Context} (h : w.Near s) (ha : s.part = .active) (hc : s.ctx p = some c) :
    (w.coolExit p).Near ((s.coolExited p c).demanded p c.coolLeft) := (h.leaveCool ha hc).rederive p

theorem Work.leaveCool_waits {c : Context} (ha : w.part = .active) (hc : w.ctx p = some c) :
    (w.leaveCool p).exitWaits p .coolExit (w.checkpointQueued p) := by
  have left := (((State.Near.refl w.toState).onCtx hc Context.coolLeft).mark .phase p).removeRequest p
  have ctl : (((w.onCtx p Context.coolLeft).mark .phase p).removeRequest p).checkpointQueued p = w.checkpointQueued p := by
    unfold Work.onCtx
    split <;> rfl
  rw [← ctl]
  exact Work.demands_wait (left.part.trans ha) ((left.ctx p).trans (State.ctx_withCtx _ _ _)) _

theorem Work.leaveCool_asks (w : Work) (p : Pocket) : (w.leaveCool p).request p = none := by
  unfold Work.leaveCool State.request
  rw [Work.demandCheckpoint_arb, Work.demandRead_arb]
  exact upd_self _ _ _

/-- Whether the motor of a record is desired (R20). -/
def Context.wantsMotor (c : Context) : Bool :=
  c.fast.hold == .none &&
    match c.fast.phase with
    | .heat => true
    | .cool => true
    | .crease => c.tumbleGranted || (c.fast.progress.map (·.tumbling)).getD false
    | _ => false

theorem State.motorDesired_iff {s : State} {p : Pocket} {c : Context} (h : s.ctx p = some c) : s.motorDesired p = c.wantsMotor := by
  unfold State.motorDesired
  rw [h]
  rfl

/-- What a context may have of its checkpoint does not bear on what is desired. -/
theorem State.motorDesired_due {s t : State} {p : Pocket} {c : Context} (h : t.ctx p = some (s.due p c)) : t.motorDesired p = c.wantsMotor := by
  rw [State.motorDesired_iff h]
  unfold State.due
  split <;> rfl

/-- The context with which a pocket ends a command is, but for its grant, the one that the work left. -/
theorem State.fast_of_offGrant {s t : State} {p : Pocket} (h : t.offGrant = s.offGrant) : (t.ctx p).map (·.fast) = (s.ctx p).map (·.fast) := by
  have view (u : State) : u.offGrant.ctxs[p] = (u.ctx p).map Context.ungranted := Vector.getElem_map _ p.isLt
  have same : (t.ctx p).map Context.ungranted = (s.ctx p).map Context.ungranted := by rw [← view, ← view, h]
  have kept (x : Option Context) : (x.map Context.ungranted).map (·.fast) = x.map (·.fast) := by cases x <;> rfl
  rw [← kept, same, kept]

/-! ### O36 -/

theorem exec_heatExit {c : Context} (h : s.runs p c) (heat : c.fast.phase = .heat) (zero : c.fast.heat = 0) (on : s.heatConfirmed p = true) :
    exec (.heatExit p) s = .next ((Work.begin s).heatExit p).finish := by
  obtain ⟨hp, ha, hc, free⟩ := h
  have e : exec (.heatExit p) s = execHeatExit p s := rfl
  rw [e, execHeatExit, powered_on hp]
  refine congrArg (fun w : Work => Host.Outcome.next w.finish) (if_pos ?_)
  simp [State.stands, State.recordIs, ha, hc, free, heat, zero, on]

theorem exec_coolExit {c : Context} (h : s.runs p c) (cool : c.fast.phase = .cool) (zero : c.fast.cool = 0) (known : c.awaitCool = false)
    (own : c.fast.cls ≠ some .coolFirst) (on : s.motorConfirmed p = true) :
    exec (.coolExit p) s = .next ((Work.begin s).coolExit p).finish := by
  obtain ⟨hp, ha, hc, free⟩ := h
  have e : exec (.coolExit p) s = execCoolExit p s := rfl
  rw [e, execCoolExit, powered_on hp]
  refine congrArg (fun w : Work => Host.Outcome.next w.finish) (if_pos ?_)
  simp [State.stands, State.recordIs, ha, hc, free, cool, zero, own, known, on]

theorem heatExit_ends {c : Context} (ha : w.part = .active) (hc : w.ctx p = some c) (free : c.fast.hold = .none) (on : w.heatConfirmed p = true)
    (place : w.waitsOnItsPhase p) :
    (w.heatExit p).finish.offGrant =
      State.offGrant (((w.withCtx p (some (w.due p c.heatLeft))).marked .phase p).markedIf c.fast.reheating .resume p) ∧
    (w.heatExit p).finish.hasReservation p = false ∧ (w.heatExit p).finish.heatDesired p = false ∧
    (w.heatExit p).finish.exitWaits p .heatExit (w.checkpointQueued p) ∧
    ((w.pocketLink p).motorBelieved = true → w.posts p .heatOff → (w.heatExit p).finish.turnedOff p) := by
  obtain ⟨cool, unheld⟩ := c.heatLeft_fast
  have near := (State.Near.refl w.toState).leaveHeat ha hc
  have exited := State.heatExited_ctx w.toState p c
  have ctx : (w.leaveHeat p).ctx p = some ((w.heatExited p c).due p c.heatLeft) := (near.ctx p).trans (State.demanded_ctx exited)
  have cold : (w.leaveHeat p).cold p := by
    intro d hd
    rw [ctx] at hd
    rw [← Option.some.inj hd, State.due_fast, cool]
    exact Phase.noConfusion
  have view := (near.rederive p).finish.trans (State.offGrant_of_offLink (State.demanded_offLink exited))
  rw [← Work.heatExit_eq] at view
  refine ⟨view.trans (congrArg State.offGrant (State.heatExited_due _ _ _)), ?_, ?_, ?_, fun believed ⟨online, unowed, admitted⟩ => ?_⟩
  · exact ((State.reservesNothing_kept p).finish (Work.heatExit_reservesNothing place)).1
  · refine State.cold.heatDesired (State.cold_of_fast (State.fast_of_offGrant view) ?_)
    intro d hd
    rw [State.ctx_withCtx] at hd
    rw [← Option.some.inj hd, State.due_fast, cool]
    exact Phase.noConfusion
  · exact (State.exitWaits_kept p _ _).finish (Work.leaveHeat_waits ha hc).rederive
  · have link := w.leaveHeat_link p
    have pocket := State.pocketLink_of_link link p
    have desired : (w.leaveHeat p).motorDesired p = true := by
      rw [State.motorDesired_due ctx, Context.wantsMotor, cool, unheld, free]
      rfl
    have still : (w.leaveHeat p).convergeMotor p = w.leaveHeat p := by
      unfold Work.convergeMotor
      rw [if_neg (by simp [State.wantsStop, desired]), if_neg (by simp [State.wantsRun, pocket, believed])]
    have heat : ((w.leaveHeat p).pocketLink p).heatBelieved.isSome = true := by
      rw [pocket]
      exact (Bool.and_eq_true_iff.1 on).1
    have acts : (w.leaveHeat p).converges p = true := by
      have part := near.part.trans ((State.demanded_part _ p _).trans ((State.heatExited_part _ p c).trans ha))
      simp [State.converges, part, pocket, online]
    exact ((State.turnedOff_kept p).finish (Work.rederive_turnedOff (State.noneOwed_of_link link unowed) acts cold still heat
      ((State.admits_of_link link p _).trans admitted))).2.2

theorem coolExit_ends {c : Context} (ha : w.part = .active) (hc : w.ctx p = some c) (on : w.motorConfirmed p = true) :
    (w.coolExit p).finish.offGrant = State.offGrant ((w.withCtx p (some (w.due p c.coolLeft))).marked .phase p) ∧
    (w.coolExit p).finish.request p = none ∧ (w.coolExit p).finish.exitWaits p .coolExit (w.checkpointQueued p) ∧
    (c.tumbleGranted = false → w.posts p .stop → (w.coolExit p).finish.stopped p) := by
  have near := (State.Near.refl w.toState).leaveCool ha hc
  have exited : (w.coolExited p c).ctx p = some c.coolLeft := State.ctx_withCtx _ _ _
  have ctx : (w.leaveCool p).ctx p = some ((w.coolExited p c).due p c.coolLeft) := (near.ctx p).trans (State.demanded_ctx exited)
  have view := (near.rederive p).finish.trans (State.offGrant_of_offLink (State.demanded_offLink exited))
  rw [← Work.coolExit_eq] at view
  have asks := w.leaveCool_asks p
  refine ⟨view.trans ?_, ?_, ?_, fun ungranted ⟨online, unowed, admitted⟩ => ?_⟩
  · exact congrArg State.offGrant (congrArg (State.marked · .phase p) (State.withCtx_withCtx _ p _ _))
  · refine Work.finish_request_none ?_
    rw [Work.coolExit_eq]
    unfold State.request
    rw [Work.rederive_arb]
    exact asks
  · exact (State.exitWaits_kept p _ _).finish (Work.leaveCool_waits ha hc).rederive
  · have link := w.leaveCool_link p
    have pocket := State.pocketLink_of_link link p
    have rests : (w.leaveCool p).motorDesired p = false := by
      rw [State.motorDesired_due ctx]
      simp [Context.wantsMotor, ungranted, Context.coolLeft, Context.change]
    have acts : (w.leaveCool p).converges p = true := by
      have part := near.part.trans ((State.demanded_part _ p _).trans ha)
      simp [State.converges, part, pocket, online]
    have runs : ((w.leaveCool p).pocketLink p).motorBelieved = true := by
      rw [pocket]
      exact (Bool.and_eq_true_iff.1 on).1
    exact ((State.stopped_kept p).finish (Work.rederive_stopped (State.noneOwed_of_link link unowed) acts
      (by simp [State.wantsStop, rests, runs]) asks
      ((State.admits_of_link link p _).trans admitted))).2.2.2

end

/-- Settles O36. -/
theorem exitsTakeTheRecordOn : Obligations.ExitsTakeTheRecordOn := by
  unfold Obligations.ExitsTakeTheRecordOn
  intro p c s h behind
  have waits (t : State) (x : ReadPurpose) (w : t.exitWaits p x (s.checkpointQueued p)) : behind t x := w
  obtain ⟨hp, ha, hc, free⟩ := id h
  refine ⟨fun heat zero on place => ?_, fun cool zero known own on => ?_⟩
  · obtain ⟨view, held, cold, behind, off⟩ := heatExit_ends (w := Work.begin s) ha hc free on place
    exact ⟨_, exec_heatExit h heat zero on, view, held, cold, waits _ _ behind, off⟩
  · obtain ⟨view, asks, behind, stop⟩ := coolExit_ends (w := Work.begin s) ha hc on
    exact ⟨_, exec_coolExit h cool zero known own on, view, asks, waits _ _ behind, stop⟩

end Sys2Proof.Machine
end
section
/-! SUPPORT. The end of a crease, the end of a tumble, and the tumble that falls due (R73, R75 to R77). -/

namespace Sys2Proof.Machine

section
variable {w : Work} {s : State} {p : Pocket}

/-- A pocket whose motor is not desired and that has no request is granted no start at the end of a command. -/
theorem State.rests_kept (p : Pocket) : KeptAtEnd fun s => s.motorDesired p = false ∧ s.request p = none where
  converge w q h := by
    rw [State.motorDesired_of_ctxs (State.ctxs_of_offLink (w.convergeOne_offLink q)), State.request, Work.convergeOne_arb]
    exact h
  probe w q _ h := by
    rw [State.motorDesired_of_ctxs (State.ctxs_of_offLink (w.postProbe_offLink q)), State.request, Work.postProbe_arb]
    exact h
  serve w x q r _ h := by cases x <;> exact h
  grant w q n asked h := by
    have other : p ≠ q := by
      rintro rfl
      rw [h.2] at asked
      simp at asked
    rw [State.motorDesired_of_ctx (w.granted_ctx_other q n other), State.request, Work.granted_arb]
    exact ⟨h.1, (upd_other _ _ other).trans h.2⟩

theorem Work.rederive_rests (h : w.motorDesired p = false ∧ w.request p = none) (q : Pocket) :
    (w.rederive q).motorDesired p = false ∧ (w.rederive q).request p = none := by
  rw [State.motorDesired_of_ctxs (State.ctxs_of_offLink (w.rederive_offLink q)), State.request, Work.rederive_arb]
  exact h

/-! ### The crease ends (R76, R77) -/

/-- A context whose record has left CREASE for DONE. -/
def Context.creaseDone (c : Context) : Context := { c.change Fast.creaseDone with tumbleLeft := none, tumbleGranted := false }

/-- The state in which the record of `p` has left CREASE, but for its checkpoint and its PHASE mark. -/
def State.creaseDone (s : State) (p : Pocket) (c : Context) : State :=
  ((s.withCtx p (some c.creaseDone)).markedIf (c.fast.hold == .link) .hold p).markedIf (c.fast.status != .none) .resume p

theorem State.creaseDone_ctx (s : State) (p : Pocket) (c : Context) : (s.creaseDone p c).ctx p = some c.creaseDone :=
  (State.ctx_markedIf _ _ _ _ _).trans ((State.ctx_markedIf _ _ _ _ _).trans (State.ctx_withCtx _ _ _))

theorem State.creaseDone_part (s : State) (p : Pocket) (c : Context) : (s.creaseDone p c).part = s.part :=
  (State.part_markedIf _ _ _ _).trans (State.part_markedIf _ _ _ _)

theorem State.creaseDone_due (s : State) (p : Pocket) (c : Context) :
    (s.creaseDone p c).withCtx p (some ((s.creaseDone p c).due p c.creaseDone)) = s.creaseLeft p c := by
  rw [State.creaseDone, State.withCtx_markedIf, State.due_markedIf, State.withCtx_markedIf, State.due_markedIf, State.withCtx_withCtx]
  rfl

/-- The end of a crease before the desired state is derived again. -/
def Work.quitCrease (w : Work) (p : Pocket) : Work :=
  let v := w.onCtx p Context.creaseDone
  let v := if w.recordIs p (·.hold == .link) then v.mark .hold p else v
  let v := if w.recordIs p (·.status != .none) then v.mark .resume p else v
  v.removeRequest p

theorem Work.leaveCrease_eq (w : Work) (p : Pocket) : w.leaveCrease p = (w.quitCrease p).rederive p := rfl

theorem Work.quitCrease_link (w : Work) (p : Pocket) : (w.quitCrease p).link = w.link := by
  unfold Work.quitCrease
  refine (Work.markIf_link _ _ _ p).trans ((Work.markIf_link _ _ _ p).trans (Work.onCtx_link w p _))

theorem Work.quitCrease_asks (w : Work) (p : Pocket) : (w.quitCrease p).request p = none := upd_self _ _ _

theorem State.Near.quitCrease {c : Context} (h : w.Near s) (hc : s.ctx p = some c) : (w.quitCrease p).Near (s.creaseDone p c) := by
  unfold Work.quitCrease
  dsimp only
  rw [State.recordIs_of_ctx ((h.ctx p).trans hc), State.recordIs_of_ctx ((h.ctx p).trans hc)]
  exact (((h.onCtx hc Context.creaseDone).markIf _ .hold p).markIf _ .resume p).removeRequest p

theorem State.Near.leaveCrease {c : Context} (h : w.Near s) (hc : s.ctx p = some c) : (w.leaveCrease p).Near (s.creaseDone p c) :=
  (h.quitCrease hc).rederive p

theorem State.Near.endCrease {c : Context} (h : w.Near s) (ha : s.part = .active) (hc : s.ctx p = some c) :
    (w.endCrease p).Near (((s.creaseDone p c).marked .phase p).demanded p c.creaseDone) :=
  ((h.leaveCrease hc).mark .phase p).demandCheckpoint ((State.creaseDone_part s p c).trans ha) (State.creaseDone_ctx s p c)

theorem State.creaseDone_over (s : State) (p : Pocket) (c : Context) :
    State.offLink (((s.creaseDone p c).marked .phase p).demanded p c.creaseDone) = (s.creaseOver p c).offLink := by
  rw [State.demanded_offLink (s := (s.creaseDone p c).marked .phase p) (State.creaseDone_ctx s p c)]
  exact congrArg State.offLink (congrArg (State.marked · .phase p) (State.creaseDone_due s p c))

/-- A checkpoint that is demanded does not bear on what is desired, requested and posted. -/
theorem Work.demandCheckpoint_motorDesired (w : Work) (p q : Pocket) : (w.demandCheckpoint p).motorDesired q = w.motorDesired q := by
  unfold Work.demandCheckpoint
  split
  · rfl
  · show (w.onCtx p _).motorDesired q = _
    by_cases e : q = p
    · subst e
      unfold State.motorDesired
      rw [Work.ctx_onCtx_self]
      cases w.ctx q <;> rfl
    · exact State.motorDesired_of_ctx (Work.ctx_onCtx_other _ _ e)

theorem Work.endCrease_rests (h : (w.leaveCrease p).motorDesired p = false ∧ (w.leaveCrease p).request p = none) :
    (w.endCrease p).motorDesired p = false ∧ (w.endCrease p).request p = none := by
  unfold Work.endCrease
  rw [Work.demandCheckpoint_motorDesired, State.request, Work.demandCheckpoint_arb]
  exact h

theorem Work.endCrease_stopped
    (h : (w.leaveCrease p).noneOwed ∧ ((w.leaveCrease p).motorDesired p = false ∧ (w.leaveCrease p).request p = none ∧ (w.leaveCrease p).stopped p)) :
    (w.endCrease p).noneOwed ∧ ((w.endCrease p).motorDesired p = false ∧ (w.endCrease p).request p = none ∧ (w.endCrease p).stopped p) := by
  obtain ⟨free, rests, asks, stop⟩ := h
  have link : (w.endCrease p).link = (w.leaveCrease p).link := Work.demandCheckpoint_link _ p
  obtain ⟨rests, asks⟩ := Work.endCrease_rests ⟨rests, asks⟩
  refine ⟨State.noneOwed_of_link link free, rests, asks, ?_⟩
  unfold State.stopped State.queued at *
  rw [link, State.pocketLink_of_link link]
  exact stop

theorem Context.creaseDone_rests (c : Context) : c.creaseDone.wantsMotor = false := by
  simp [Context.wantsMotor, Context.creaseDone, Context.change, Fast.creaseDone]

theorem Work.quitCrease_rests {c : Context} (hc : w.ctx p = some c) : (w.quitCrease p).motorDesired p = false := by
  have near := (State.Near.refl w.toState).quitCrease hc
  rw [State.motorDesired_iff ((near.ctx p).trans (State.creaseDone_ctx _ p c)), Context.creaseDone_rests]

/-- What the end of a crease leaves (R76, R77). -/
theorem endCrease_ends {c : Context} (ha : w.part = .active) (hc : w.ctx p = some c) :
    (w.endCrease p).finish.offGrant = (w.creaseOver p c).offGrant ∧ (w.endCrease p).finish.motorDesired p = false ∧
    (w.endCrease p).finish.request p = none ∧
    ((w.pocketLink p).motorBelieved = true ∨ w.queued p .run = true → w.posts p .stop → (w.endCrease p).finish.stopped p) := by
  have near := (State.Near.refl w.toState).endCrease (p := p) ha hc
  have quit := (State.Near.refl w.toState).quitCrease hc
  have rests := Work.quitCrease_rests hc
  have asks := w.quitCrease_asks p
  obtain ⟨motor, request⟩ := (State.rests_kept p).finish (Work.endCrease_rests (Work.rederive_rests (p := p) ⟨rests, asks⟩ p))
  refine ⟨near.finish.trans (State.offGrant_of_offLink (State.creaseDone_over _ p c)), motor, request, fun runs ⟨online, unowed, admitted⟩ => ?_⟩
  have link := w.quitCrease_link p
  have pocket := State.pocketLink_of_link link p
  have acts : (w.quitCrease p).converges p = true := by
    have part := quit.part.trans ((State.creaseDone_part _ p c).trans ha)
    simp [State.converges, part, pocket, online]
  have calls : (w.quitCrease p).wantsStop p = true := by
    have queued : (w.quitCrease p).queued p .run = w.queued p .run := by
      unfold State.queued
      rw [link]
    rw [State.wantsStop, rests, pocket, queued]
    simpa using runs
  exact ((State.stopped_kept p).finish (Work.endCrease_stopped (Work.rederive_stopped (State.noneOwed_of_link link unowed) acts calls asks
    ((State.admits_of_link link p _).trans admitted)))).2.2.2

/-! ### The end of a tumble (R75) -/

/-- A context whose tumble has ended, the next one due after the interval. -/
def Context.tumbleOver (c : Context) : Context :=
  { c.change (fun f => { f with progress := f.progress.map fun cp => { cp with tumbling := false, nextDue := c.interval } }) with
    tumbleLeft := none, tumbleGranted := false }

theorem Context.tumbleOver_of_progress {c : Context} {cp : CreaseProgress} (h : c.fast.progress = some cp) :
    c.tumbleOver = { c.change (fun f => { f with progress := some { cp with tumbling := false, nextDue := c.interval } }) with
      tumbleLeft := none, tumbleGranted := false } := by
  simp [Context.tumbleOver, Context.change, h]

theorem Work.endTumble_eq {c : Context} {cp : CreaseProgress} (hc : w.ctx p = some c) (hf : c.fast.progress = some cp) :
    w.endTumble p = if cp.remaining = 0 then (w.onCtx p Context.tumbleOver).endCrease p else ((w.onCtx p Context.tumbleOver).removeRequest p).rederive p := by
  have last : (w.recordIs p fun f => (f.progress.map (·.remaining)).getD 1 == 0) = (cp.remaining == 0) := by
    rw [State.recordIs_of_ctx hc, hf]
    rfl
  unfold Work.endTumble
  dsimp only
  rw [last]
  simp only [beq_iff_eq]
  rfl

theorem Context.tumbleOver_rests {c : Context} (h : c.fast.phase = .crease) : c.tumbleOver.wantsMotor = false := by
  cases hf : c.fast.progress <;> simp [Context.wantsMotor, Context.tumbleOver, Context.change, h, hf]

end

theorem exec_tumbleDue {s : State} {p : Pocket} {c : Context} {cp : CreaseProgress} (h : s.runs p c) (crease : c.fast.phase = .crease)
    (hf : c.fast.progress = some cp) (rest : cp.tumbling = false) (due : cp.nextDue = 0) :
    exec (.tumbleDue p) s = .next ((Work.begin s).tumbleDue p).finish := by
  obtain ⟨hp, ha, hc, free⟩ := h
  have e : exec (.tumbleDue p) s = execTumbleDue p s := rfl
  rw [e, execTumbleDue, powered_on hp]
  refine congrArg (fun w : Work => Host.Outcome.next w.finish) (if_pos ?_)
  simp [State.stands, State.recordIs, ha, hc, free, crease, hf, rest, due]

theorem exec_creaseWindowEnd {s : State} {p : Pocket} {c : Context} {cp : CreaseProgress} (h : s.runs p c) (crease : c.fast.phase = .crease)
    (hf : c.fast.progress = some cp) (zero : cp.window = 0) :
    exec (.creaseWindowEnd p) s = .next ((Work.begin s).endCrease p).finish := by
  obtain ⟨hp, ha, hc, free⟩ := h
  have e : exec (.creaseWindowEnd p) s = execCreaseWindowEnd p s := rfl
  rw [e, execCreaseWindowEnd, powered_on hp]
  refine congrArg (fun w : Work => Host.Outcome.next w.finish) (if_pos ?_)
  simp [State.stands, State.recordIs, ha, hc, free, crease, hf, zero]

theorem exec_tumbleEnd {s : State} {p : Pocket} {c : Context} {cp : CreaseProgress} (h : s.runs p c) (crease : c.fast.phase = .crease)
    (hf : c.fast.progress = some cp) (tumbling : cp.tumbling = true) (zero : c.tumbleLeft = some 0) :
    exec (.tumbleEnd p) s = .next ((Work.begin s).endTumble p).finish := by
  obtain ⟨hp, ha, hc, free⟩ := h
  have e : exec (.tumbleEnd p) s = execTumbleEnd p s := rfl
  rw [e, execTumbleEnd, powered_on hp]
  refine congrArg (fun w : Work => Host.Outcome.next w.finish) (if_pos ?_)
  simp [State.stands, State.recordIs, ha, hc, free, crease, hf, tumbling, zero]

theorem State.creaseOver_withCtx (s : State) (p : Pocket) (c d : Context) : (s.withCtx p (some d)).creaseOver p c = s.creaseOver p c := by
  have due (x : Context) : (s.withCtx p (some d)).due p x = s.due p x := rfl
  rw [State.creaseOver, State.creaseLeft, State.withCtx_withCtx, due]
  rfl

/-- Settles O37. -/
theorem tumblesComeAndGo : Obligations.TumblesComeAndGo := by
  unfold Obligations.TumblesComeAndGo
  intro p c cp s h crease hf
  obtain ⟨hp, ha, hc, free⟩ := id h
  refine ⟨fun zero => ?_, fun tumbling zero => ?_, fun rest due => ?_⟩
  · obtain ⟨view, motor, request, stop⟩ := endCrease_ends (w := Work.begin s) (p := p) ha hc
    exact ⟨_, exec_creaseWindowEnd h crease hf zero, view, request, motor, stop⟩
  · intro d
    have tumbled : c.tumbleOver = d := Context.tumbleOver_of_progress hf
    have near := (State.Near.refl s).onCtx (w := Work.begin s) hc Context.tumbleOver
    have ended : ((Work.begin s).onCtx p Context.tumbleOver).ctx p = some c.tumbleOver := (near.ctx p).trans (State.ctx_withCtx _ _ _)
    have link : ((Work.begin s).onCtx p Context.tumbleOver).link = s.link := Work.onCtx_link _ _ _
    refine ⟨fun more => ⟨_, exec_tumbleEnd h crease hf tumbling zero, ?_⟩, fun last => ⟨_, exec_tumbleEnd h crease hf tumbling zero, ?_⟩⟩
    · rw [Work.endTumble_eq (w := Work.begin s) hc hf, if_neg more, ← tumbled]
      generalize (Work.begin s).onCtx p Context.tumbleOver = v at *
      have removed := near.removeRequest p
      have rests : (v.removeRequest p).motorDesired p = false := by
        rw [State.motorDesired_iff ((removed.ctx p).trans (State.ctx_withCtx _ _ _)), Context.tumbleOver_rests crease]
      have asks : (v.removeRequest p).request p = none := upd_self _ _ _
      obtain ⟨motor, request⟩ := (State.rests_kept p).finish (Work.rederive_rests ⟨rests, asks⟩ p)
      refine ⟨(removed.rederive p).finish, request, motor, fun runs ⟨online, unowed, admitted⟩ => ?_⟩
      have same : (v.removeRequest p).link = s.link := link
      have pocket := State.pocketLink_of_link same p
      have acts : (v.removeRequest p).converges p = true := by
        rw [State.converges, removed.part.trans ha, pocket, online]
        rfl
      exact ((State.stopped_kept p).finish (Work.rederive_stopped (State.noneOwed_of_link same unowed) acts
        (by simp [State.wantsStop, rests, pocket, runs]) asks ((State.admits_of_link same p _).trans admitted))).2.2.2
    · rw [Work.endTumble_eq (w := Work.begin s) hc hf, if_pos last, ← tumbled]
      obtain ⟨view, -, request, -⟩ := endCrease_ends (near.part.trans ha) ended
      refine ⟨view.trans ?_, request⟩
      rw [Work.onCtx_of_ctx hc]
      exact congrArg State.offGrant (State.creaseOver_withCtx s p _ _)
  · refine ⟨_, exec_tumbleDue h crease hf rest due, ?_, Work.finish_wants (Work.makeRequest_wants _ _ _)⟩
    exact ((State.Near.refl s).makeRequest (w := Work.begin s) p _).finish

end Sys2Proof.Machine
end
section
/-! SUPPORT. A clock step in which one pocket's HEAT exit turns another pocket's heat off before its count. -/

namespace Sys2Proof.Machine

/-- A context in HEAT with `n` seconds of heat remaining. -/
def Context.heatingFor (n : Nat) : Context :=
  { gen := 118, frame := 5, fast := { Fast.zero with phase := .heat, heat := n }, dirty := 0, since := 0, shadow := ⟨87000, none, false⟩
    timer := 30, checkpoint := .idle, pinned := false, tumbleLeft := none, awaitCool := false, tumbleGranted := false, interval := 120
    length := 15, heatLevel := some 2, stampPending := false, commitMove := false }

/-- An ACTIVE part whose link queue is full. The heat of pocket 3 is confirmed on, its motor is believed STOPPED, and its HEAT_OFF is held back
for room. The HEAT exit of pocket 2, due at the next clock step, merges its HEAT_OFF and purges its HEAT_ON, which makes the room. -/
def crowdedLink : State :=
  { State.reset with
    part := .active
    ctxs := upd (upd noContexts 2 (some (.heatingFor 1))) 3 (some (.heatingFor 600))
    link := { LinkCtl.reset with
      pockets := upd (upd (Vector.replicate 32 { PocketLink.reset with state := .online })
        2 { PocketLink.reset with state := .online, motorBelieved := true, heatBelieved := some 2 })
        3 { PocketLink.reset with state := .online, heatBelieved := some 2 }
      queue := Entry.fresh (some 2) .heatOff :: Entry.fresh (some 2) .heatOn ::
        (List.range 15).flatMap fun i => [Entry.fresh (some (Fin.ofNat 32 (i + 4))) .poll, Entry.fresh (some (Fin.ofNat 32 (i + 4))) .clearDoor] } }

/-- The heat remaining of pocket 3 after a clock step of the crowded part. -/
theorem crowdedLink_counts_no_heat :
    crowdedLink.heatConfirmed 3 = true ∧
    (match exec .clockStep crowdedLink with
      | .next t => (t.ctx 3).map (·.fast.heat)
      | _ => none) = some 600 := by decide +kernel

/-- Refutes O35: the heat of pocket 3 is confirmed on as the clock step begins. The HEAT exit of pocket 2 in the same step then makes room in the
link queue, in which the HEAT_OFF of pocket 3 is posted before the step reaches that pocket, so that its count of 600 stands. -/
theorem not_clockStepCountsWhatRuns : ¬ Obligations.ClockStepCountsWhatRuns := by
  unfold Obligations.ClockStepCountsWhatRuns
  intro holds
  obtain ⟨confirmed, stands⟩ := crowdedLink_counts_no_heat
  obtain ⟨-, active⟩ := holds 3 (.heatingFor 600) crowdedLink rfl
  obtain ⟨t, next, -, -, -, -, d, hd, -, heat, -⟩ := active rfl rfl
  have counted := (heat rfl rfl).2.1 confirmed (by decide)
  rw [next] at stands
  simp only [hd, counted, Option.map_some] at stands
  simp [Context.heatingFor] at stands

end Sys2Proof.Machine
end
section
/-! SUPPORT. RETIRE drops the record and enqueues the retire operation (R11, R30, R39, R57). -/

namespace Sys2Proof.Machine

section
variable {w : Work} {s : State} {p : Pocket}

/-- Whether an operation is the checkpoint, the move or the static read of a record. -/
def StoreOp.tends (op : StoreOp) (p : Pocket) : Bool := op.isCheckpointOf p || op.isMoveOf p || op.isReadOf p

theorem StoreOp.widened_tends (op : StoreOp) (p q : Pocket) (why : ReadPurpose) : (op.widened q why).tends p = op.tends p := by
  cases op with
  | staticRead r ps =>
    obtain ⟨more, is⟩ := StoreOp.widened_read q r ps why
    rw [is]
    rfl
  | _ => rfl

/-- The pocket has no context and no request, and no operation of a record of it waits. -/
def State.recordGone (s : State) (p : Pocket) : Prop := s.ctx p = none ∧ s.request p = none ∧ s.ctl.queue.any (·.tends p) = false

theorem State.recordGone.heatDesired (h : s.recordGone p) : s.heatDesired p = false := by
  unfold State.heatDesired
  rw [h.1]

theorem State.recordGone.motorDesired (h : s.recordGone p) : s.motorDesired p = false := by
  unfold State.motorDesired
  rw [h.1]

theorem joinRead_tends {l : List StoreOp} {q : Pocket} (other : q ≠ p) (why : ReadPurpose) (h : l.any (·.tends p) = false) :
    (joinRead l q why).any (·.tends p) = false := by
  unfold joinRead
  split
  · simpa [List.any_map, Function.comp_def, StoreOp.widened_tends] using h
  · rw [List.any_append, h]
    simp [StoreOp.tends, StoreOp.isCheckpointOf, StoreOp.isMoveOf, StoreOp.isReadOf, other]

theorem Work.rests_of_view {v : Work} (view : v.offLink = w.offLink) (arb : v.arb = w.arb) (h : w.recordGone p) :
    v.ctx p = none ∧ v.request p = none := by
  obtain ⟨ctx, request, -⟩ := h
  refine ⟨?_, ?_⟩
  · unfold State.ctx
    rw [State.ctxs_of_offLink view]
    exact ctx
  · unfold State.request
    rw [arb]
    exact request

theorem State.recordGone_kept (p : Pocket) : KeptAtEnd fun s => s.recordGone p where
  converge w q h := by
    obtain ⟨ctx, request⟩ := Work.rests_of_view (w.convergeOne_offLink q) (w.convergeOne_arb q) h
    refine ⟨ctx, request, ?_⟩
    rcases w.convergeOne_queue q with e | ⟨desired, e⟩ <;> rw [e]
    · exact h.2.2
    · refine joinRead_tends ?_ _ h.2.2
      rintro rfl
      rw [h.heatDesired] at desired
      simp at desired
  probe w q _ h := by
    obtain ⟨ctx, request⟩ := Work.rests_of_view (w.postProbe_offLink q) (w.postProbe_arb q) h
    refine ⟨ctx, request, ?_⟩
    rw [Work.postProbe_ctl]
    exact h.2.2
  serve w x q r _ h := by cases x <;> exact h
  grant w q n asked h := by
    obtain ⟨ctx, request, idle⟩ := h
    have other : p ≠ q := by
      rintro rfl
      rw [request] at asked
      simp at asked
    refine ⟨(w.granted_ctx_other q n other).trans ctx, ?_, ?_⟩
    · rw [State.request, Work.granted_arb]
      exact (upd_other _ _ other).trans request
    · rw [Work.granted_ctl]
      exact idle

theorem State.recordGone.rederive (h : w.recordGone p) : (w.rederive p).recordGone p := by
  refine (State.recordGone_kept p).rederive ((State.recordGone_kept p).converge w p h) fun v hv _ => ?_
  obtain ⟨ctx, request⟩ := Work.rests_of_view (Work.endAuthority_offLink v p) (Work.endAuthority_arb v p) hv
  refine ⟨ctx, request, ?_⟩
  rw [Work.endAuthority_ctl]
  exact hv.2.2

/-! ### RETIRE -/

theorem Work.dropContext_idle (w : Work) (p : Pocket) : (w.dropContext p).ctl.queue.any (·.tends p) = false := by
  have filtered (l : List StoreOp) : (l.filter fun op => !(op.isCheckpointOf p || op.isMoveOf p || op.isReadOf p)).any (·.tends p) = false := by
    rw [List.any_eq_false]
    intro op hop
    simpa [StoreOp.tends] using (List.mem_filter.1 hop).2
  exact filtered _

theorem Work.dropContext_waitsOnItsPhase (h : w.waitsOnItsPhase p) : (w.dropContext p).waitsOnItsPhase p := h

/-- The retirement of a record up to its retire operation (R11). -/
def Work.takeOut (w : Work) (p : Pocket) : Work :=
  (((((w.dropContext p).mark .retired p).removeRequest p).releaseHeat p).rederive p).removeEntries
    fun e => e.isFor p && e.kind == .heatOn && e.level.isNone

theorem Work.retireRecord_of_ctx {c : Context} (hc : w.ctx p = some c) (host : Bool) :
    w.retireRecord p host = (w.takeOut p).enqueue (.retire p c.frame c.pinned host) := by
  unfold Work.retireRecord
  rw [hc]
  rfl

theorem Work.takeOut_gone (w : Work) (p : Pocket) : (w.takeOut p).recordGone p := by
  have dropped := w.dropContext_idle p
  have gone : ((((w.dropContext p).mark .retired p).removeRequest p).releaseHeat p).recordGone p := by
    have view := (((State.Near.refl (w.dropContext p).toState).mark .retired p).removeRequest p).releaseHeat p
    refine ⟨(view.ctx p).trans (Work.ctx_setCtx_self _ _ _), ?_, ?_⟩
    · unfold State.request
      rw [Work.releaseHeat_arb]
      exact upd_self _ _ _
    · rw [Work.releaseHeat_queue]
      exact dropped
  obtain ⟨ctx, request⟩ := Work.rests_of_view (Work.removeEntries_offLink _ fun e => e.isFor p && e.kind == .heatOn && e.level.isNone)
    (Work.removeEntries_arb _ _) gone.rederive
  refine ⟨ctx, request, ?_⟩
  rw [Work.takeOut, Work.removeEntries_ctl]
  exact gone.rederive.2.2

theorem Work.takeOut_reservesNothing (h : w.waitsOnItsPhase p) : (w.takeOut p).reservesNothing p := by
  refine State.reservesNothing_of_heat (Work.removeEntries_heat _ _) (State.reservesNothing.rederive ?_ p)
  exact Work.releaseHeat_reservesNothing (w := ((w.dropContext p).mark .retired p).removeRequest p) h

theorem retire_waits_joinRead {op : StoreOp} (h : ∀ q why, op.widened q why = op) {l : List StoreOp} (hl : op ∈ l) (q : Pocket) :
    op ∈ joinRead l q .heatLevel := by
  unfold joinRead
  split
  · exact List.mem_map.2 ⟨op, hl, h _ _⟩
  · exact List.mem_append_left _ hl

/-- A work in which the record of `p` has been withdrawn leaves it retiring once its retire operation waits. -/
theorem State.retiring_at_end {f : Nat} {a b : Bool} (gone : w.recordGone p) (frees : w.reservesNothing p)
    (waits : .retire p f a b ∈ w.ctl.queue) : w.finish.retiring p (.retire p f a b) := by
  have end_gone := (State.recordGone_kept p).finish gone
  have end_frees := (State.reservesNothing_kept p).finish frees
  have end_waits := (KeptAtEnd.of_joinRead (P := fun l => StoreOp.retire p f a b ∈ l) fun l q hl =>
    retire_waits_joinRead (op := .retire p f a b) (fun _ _ => rfl) hl q).finish waits
  exact ⟨end_gone.2.1, end_frees.1, end_frees.2, end_gone.heatDesired, end_gone.motorDesired, end_waits, end_gone.2.2⟩

theorem Work.retireRecord_retiring {c : Context} (hc : w.ctx p = some c) (place : w.waitsOnItsPhase p) (host : Bool) :
    (w.retireRecord p host).recordGone p ∧ (w.retireRecord p host).reservesNothing p ∧
      .retire p c.frame c.pinned host ∈ (w.retireRecord p host).ctl.queue := by
  have gone := w.takeOut_gone p
  have frees := Work.takeOut_reservesNothing place
  rw [Work.retireRecord_of_ctx hc]
  generalize w.takeOut p = v at gone frees
  obtain ⟨ctx, request, idle⟩ := gone
  have joined (l : List StoreOp) (hl : l.any (·.tends p) = false) : (l ++ [StoreOp.retire p c.frame c.pinned host]).any (·.tends p) = false := by
    rw [List.any_append, hl]
    rfl
  exact ⟨⟨ctx, request, joined _ idle⟩, frees, List.mem_append_right _ (List.mem_singleton.2 rfl)⟩

theorem State.Near.retireRecord {c : Context} (hc : w.ctx p = some c) (host : Bool) :
    (w.retireRecord p host).Near (((w.dropContext p).marked .retired p).queues (.retire p c.frame c.pinned host)) := by
  rw [Work.retireRecord_of_ctx hc]
  exact ((((((State.Near.refl (w.dropContext p).toState).mark .retired p).removeRequest p).releaseHeat p).rederive p).removeEntries _).enqueue rfl

/-- A dropped context leaves the rest of the state, but for the operations that wait or work for it. -/
theorem Work.dropContext_storeFreed (w : Work) (p : Pocket) (op : StoreOp) :
    ((((w.dropContext p).marked .retired p).queues op).storeFreed).offLink = ((w.storeFreed.withCtx p none).marked .retired p).offLink := rfl

end

/-- Settles O18. -/
theorem retireDropsTheRecord : Obligations.RetireDropsTheRecord := by
  unfold Obligations.RetireDropsTheRecord
  refine ⟨fun p c s h place => ?_, fun p c s ready ha hr hm hc place other => ?_⟩
  · obtain ⟨r, hexec⟩ := exec_translationReadEnd_of_reaches h (fun _ _ => HostReq.noConfusion) fun _ => rfl
    obtain ⟨⟨_, ⟨_, ha, _⟩, _⟩, hc⟩ := h
    rw [hexec, Work.onRecord]
    generalize hw : Work.begin { s with ctl := { s.ctl with current := some r } } = w
    have ctx : w.ctx p = some c := by
      rw [← hw]
      exact hc
    have part : w.part = .active := by
      rw [← hw]
      exact ha
    have near := State.Near.retireRecord ctx true
    obtain ⟨gone, frees, waits⟩ := Work.retireRecord_retiring ctx (by rw [← hw]; exact place) true
    refine ⟨_, rfl, (near.endOp part r).finish.trans ?_, ?_⟩
    · refine (State.offGrant_of_offLink (w.dropContext_storeFreed p _)).trans ?_
      have freed : w.storeFreed = s.storeFreed := by
        rw [← hw]
        rfl
      rw [freed]
    · rw [Work.endOp_active (near.part.trans part)]
      exact State.retiring_at_end gone frees waits
  · rw [exec_active (c := .retire p.val) (r := .retire p.val) rfl ready ha rfl]
    have owned : (Work.begin (s.taken (.retire p.val))).own (.retire p.val) = (Work.begin (s.taken (.retire p.val))).retireRecord p true := by
      show Work.ownRetire _ p.val = _
      unfold Work.ownRetire Work.onMapFault
      rw [State.pocketInRange_of_lt (by exact hr)]
      have faulted : (Work.begin (s.taken (.retire p.val))).ctl.mapFault.has p = true := hm
      have held : ((Work.begin (s.taken (.retire p.val))).ctx p).isSome = true := by
        have same : (Work.begin (s.taken (.retire p.val))).ctx p = s.ctx p := rfl
        rw [same, hc]
        rfl
      dsimp only
      rw [if_pos faulted, if_pos held]
    rw [owned]
    have near := State.Near.retireRecord (w := Work.begin (s.taken (.retire p.val))) hc true
    obtain ⟨gone, frees, waits⟩ := Work.retireRecord_retiring (w := Work.begin (s.taken (.retire p.val))) hc place true
    refine ⟨_, rfl, near.finish.trans ?_, State.retiring_at_end gone frees waits⟩
    have still : (Work.begin (s.taken (.retire p.val))).ctl.current.map (fun r => if r.op.worksFor p &&
        ((Work.begin (s.taken (.retire p.val))).ctx p).isSome then { r with stash := (Work.begin (s.taken (.retire p.val))).ctx p } else r) =
        s.ctl.current := by
      show s.ctl.current.map _ = _
      cases hr : s.ctl.current with
      | none => rfl
      | some r => simp [other r hr]
    exact congrArg (fun x => State.offGrant ((((s.taken (.retire p.val)).withCtx p none).marked .retired p).withCurrent x)) still

end Sys2Proof.Machine
end
section
/-! SUPPORT. SET_HEAT and SET_OPTIONS write one static field (R28, R29, R65). -/

namespace Sys2Proof.Machine

theorem Fast.blend_self (m : FieldSet) (f : Fast) : Fast.blend m f f = f := by simp [Fast.blend]

theorem roleOf_one (g : Geometry) : roleOf g 1 = .first := by cases g <;> rfl

/-- Word 1 of a frame written with static fields that agree in the crease plan. -/
theorem Frame.copyWord_statics {x : Frame} {y : Statics} (h : y.plan = x.plan) : Frame.copyWord .first (x.withStatics y) x = x.withStatics y := by
  simp [Frame.copyWord, Frame.withStatics, Fast.blend_self, h]

theorem StaticChange.apply_plan (change : StaticChange) (st : Statics) : (change.apply st).plan = st.plan := by cases change <;> rfl

section
variable {s : State} {p : Pocket} {c : Context} {change : StaticChange} {clamped : Bool}

/-- The state in which a static write has changed its field and nothing else, still in progress (R65). -/
def State.fieldWritten (s : State) (f : Nat) (change : StaticChange) (r : Running) : State :=
  (s.withFrame f ((s.store.frame f).withStatics (change.apply (s.store.frame f).statics))).withCurrent (some r)

/-- The access of a static write (R65). -/
theorem runPlain_staticWrite (hc : s.ctx p = some c) (clean : s.store.flaw (frameWord s.geometry c.frame 1) = none)
    (h : s.serving (.staticWrite p change clamped) [.staticMerge]) :
    Work.runPlain accessLimit (Work.begin s) = Work.begin (s.fieldWritten c.frame change (Running.of (.staticWrite p change clamped) [])) := by
  have limit : accessLimit = 127 + 1 := rfl
  rw [limit, Work.runPlain_step 127 (w := Work.begin s) h rfl rfl, Work.access_record (w := Work.begin s) h rfl rfl rfl hc]
  generalize hw : ({ Work.begin s with ctl := { (Work.begin s).ctl with current := some { Running.of (.staticWrite p change clamped) [.staticMerge] with
    todo := [] } } } : Work) = w
  have flaw : w.store.flaw (frameWord w.geometry c.frame 1) = none := by
    rw [← hw]
    exact clean
  have written : Work.recordAccess w { Running.of (.staticWrite p change clamped) [.staticMerge] with todo := [] } p c .staticMerge =
      { w with store := w.store.setFrame c.frame ((w.store.frame c.frame).withStatics (change.apply (w.store.frame c.frame).statics)) } := by
    show Work.staticMerge w _ c change = _
    unfold Work.staticMerge
    dsimp only
    rw [State.readable_clean flaw, if_pos rfl, Work.readWord_clean flaw, Work.writeFrameWord_clean flaw, roleOf_one,
      Frame.copyWord_statics (change.apply_plan _)]
  rw [written, ← hw]
  exact Work.runPlain_done 127 rfl rfl

/-- A static write ends in ACTIVE. -/
theorem exec_staticWriteEnd (hp : s.powered = true) (hc : s.ctx p = some c) (clean : s.store.flaw (frameWord s.geometry c.frame 1) = none)
    (h : s.serving (.staticWrite p change clamped) [.staticMerge]) :
    exec (.staticWriteEnd noFailures) s = .next (((((Work.begin (s.fieldWritten c.frame change (Running.of (.staticWrite p change clamped) []))).staticChanged
      p change).respond (if clamped then .okClamped else .ok) []).endOp (Running.of (.staticWrite p change clamped) [])).finish) := by
  have e : exec (.staticWriteEnd noFailures) s = execStaticWriteEnd noFailures s := rfl
  rw [e, execStaticWriteEnd, powered_on hp, Work.endWhere_done (w := Work.begin s) (found := noFailures) h rfl (runPlain_staticWrite hc clean h) rfl rfl]
  rfl

theorem State.fieldWritten_creaseDone (s : State) (f : Nat) (change : StaticChange) (r : Running) (p : Pocket) (c : Context) :
    ((s.fieldWritten f change r).creaseOver p c).storeFreed =
      (s.storeFreed.withFrame f ((s.store.frame f).withStatics (change.apply (s.store.frame f).statics))).creaseOver p c := by
  unfold State.creaseOver State.creaseLeft
  rw [State.storeFreed_marked, State.storeFreed_markedIf, State.storeFreed_markedIf]
  rfl

end

/-- A crease that ends within a request, once the request is answered and its operation over. -/
theorem endCrease_replied {w : Work} {s : State} {p : Pocket} {c : Context} (near : w.Near s) (ha : s.part = .active) (hc : s.ctx p = some c)
    (b : Result) (bytes : List Byte) (r : Running) : (((w.endCrease p).respond b bytes).endOp r).finish.offGrant =
      State.offGrant ((s.creaseOver p c).storeFreed.replied b bytes) := by
  have ended := (near.endCrease ha hc).respond b bytes
  have part := (State.demanded_part ((s.creaseDone p c).marked .phase p) p c.creaseDone).trans ((State.creaseDone_part s p c).trans ha)
  refine ((ended.endOp part r).finish.trans (State.offGrant_demanded_replied (s := (s.creaseDone p c).marked .phase p) (State.creaseDone_ctx s p c) b bytes)).trans ?_
  exact congrArg (fun t => State.offGrant ((State.replied (t.marked .phase p) b bytes).storeFreed)) (State.creaseDone_due s p c)

theorem Work.onCtx_grant (w : Work) (p : Pocket) (f : Context → Context) : (w.onCtx p f).grant = w.grant := by
  unfold Work.onCtx
  split <;> rfl

/-- Settles O22. -/
theorem staticWritesChangeOneField : Obligations.StaticWritesChangeOneField := by
  unfold Obligations.StaticWritesChangeOneField
  intro p c n set clear clamped s hp ha hc clean x ended answer
  refine ⟨fun h => ?_, fun h => ⟨fun other => ?_, fun crease adds => ?_⟩⟩
  · refine ⟨_, exec_staticWriteEnd hp hc clean h, ?_⟩
    generalize hr : Running.of (.staticWrite p (.level n) clamped) [] = r
    have near := ((((State.Near.refl (s.fieldWritten c.frame (.level n) r)).onCtx (w := Work.begin (s.fieldWritten c.frame (.level n) r)) hc
      fun c => { c with heatLevel := c.heatLevel.map fun _ => n }).rederive p).respond answer []).endOp (by exact ha) r
    refine (near.finish_ungranted ?_).trans rfl
    rw [Work.endOp_active]
    · exact Work.rederive_grant _ _ |>.trans (Work.onCtx_grant _ _ _)
    · exact ((((State.Near.refl (s.fieldWritten c.frame (.level n) r)).onCtx (w := Work.begin (s.fieldWritten c.frame (.level n) r)) hc
        fun c => { c with heatLevel := c.heatLevel.map fun _ => n }).rederive p).part).trans ha
  · have still : (Work.begin (s.fieldWritten c.frame (.options set clear) (Running.of (.staticWrite p (.options set clear) clamped) []))).staticChanged p
        (.options set clear) = Work.begin (s.fieldWritten c.frame (.options set clear) (Running.of (.staticWrite p (.options set clear) clamped) [])) := by
      refine if_neg ?_
      rintro ⟨-, adds, crease⟩
      rw [State.recordIs_of_ctx (by exact hc)] at crease
      rcases other with h | h
      · exact h (beq_iff_eq.1 crease)
      · rw [h] at adds
        simp at adds
    show exec _ s = _
    rw [exec_staticWriteEnd hp hc clean h, still, Work.respond_endOp_finish (by exact ha)]
    rfl
  · refine ⟨_, exec_staticWriteEnd hp hc clean h, ?_⟩
    generalize hr : Running.of (.staticWrite p (.options set clear) clamped) [] = r
    have near := State.Near.refl (s.fieldWritten c.frame (.options set clear) r)
    have ends : (Work.begin (s.fieldWritten c.frame (.options set clear) r)).staticChanged p (.options set clear) =
        (Work.begin (s.fieldWritten c.frame (.options set clear) r)).endCrease p := by
      refine if_pos ⟨by exact ha, adds, ?_⟩
      rw [State.recordIs_of_ctx (by exact hc), crease]
      rfl
    rw [ends, endCrease_replied (w := Work.begin (s.fieldWritten c.frame (.options set clear) r)) near (by exact ha) (by exact hc), State.fieldWritten_creaseDone]
    rfl

end Sys2Proof.Machine
end
section
/-! SUPPORT. A static read hands over the static fields of the frame (R22, R45, R67, R71). -/

namespace Sys2Proof.Machine

/-! ### The reads (R45) -/

/-- The static fields as a read of every static word gives them; a COMPACT frame holds no crease plan (section 2.2). -/
def Frame.staticsRead (x : Frame) (g : Geometry) : Statics := { x.statics with plan := if g = .standard then x.plan else none }

theorem effectivePlan_staticsRead (s : State) (x : Frame) : s.effectivePlan (x.staticsRead s.geometry).plan = s.effectivePlan x.statics.plan := by
  unfold State.effectivePlan Frame.staticsRead
  cases s.geometry <;> rfl

theorem imageBytes_staticsRead (g : Geometry) (p gen : Nat) (x : Frame) (f : Fast) (sh : Shadow) (a b : Bool) :
    imageBytes g p gen (x.staticsRead g) f sh a b = imageBytes g p gen x.statics f sh a b := by cases g <;> rfl

/-- A static read in progress that has read the fields `st`. -/
def State.readingStatics (s : State) (op : StoreOp) (st : Statics) (todo : List Access) : State :=
  s.withCurrent (some { Running.of op todo with statics := st })

section
variable {s : State} {p : Pocket} {c : Context} {op : StoreOp}

/-- One static word of a clean frame is read. -/
theorem access_readStatic (ho : op.recordPocket = some p) (hc : s.ctx p = some c) (clean : s.frameClean c.frame) {k : Nat}
    (hk : k < frameSize s.geometry) (st : Statics) (todo : List Access) :
    (Work.begin (s.readingStatics op st (.readStatic k :: todo))).access =
      Work.begin (s.readingStatics op (st.take (roleOf s.geometry k) (s.store.frame c.frame).statics) todo) := by
  rw [Work.access_record (w := Work.begin (s.readingStatics op st (.readStatic k :: todo))) (r := { Running.of op (.readStatic k :: todo) with statics := st })
    rfl rfl ho rfl (by exact hc)]
  generalize hw : ({ Work.begin (s.readingStatics op st (.readStatic k :: todo)) with ctl := { (Work.begin (s.readingStatics op st
    (.readStatic k :: todo))).ctl with current := some { Running.of op (.readStatic k :: todo) with statics := st, todo := todo } } } : Work) = w
  have flaw : w.store.flaw (frameWord w.geometry c.frame k) = none := by
    rw [← hw]
    exact clean k hk
  have current : w.ctl.current = some { Running.of op todo with statics := st } := by
    rw [← hw]
    rfl
  show Work.readStatic w _ c k = _
  unfold Work.readStatic
  dsimp only
  rw [State.readable_clean flaw, if_pos rfl, Work.readWord_clean flaw, Work.onRun_of_current current, ← hw]
  rfl

/-- Every static word of a clean frame is read. -/
theorem runPlain_staticRead (ho : op.recordPocket = some p) (hc : s.ctx p = some c) (clean : s.frameClean c.frame)
    (h : s.serving op ((staticWords s.geometry).map Access.readStatic)) :
    Work.runPlain accessLimit (Work.begin s) = Work.begin (s.readingStatics op ((s.store.frame c.frame).staticsRead s.geometry) []) := by
  have begun : Work.begin s = Work.begin (s.readingStatics op ⟨1, Options.none, 0, none⟩ ((staticWords s.geometry).map Access.readStatic)) := by
    refine congrArg Work.begin ?_
    exact (congrArg s.withCurrent h :)
  have one (m : Nat) (k : Nat) (hk : k < frameSize s.geometry) (st : Statics) (todo : List Access) :
      Work.runPlain (m + 1) (Work.begin (s.readingStatics op st (.readStatic k :: todo))) =
        Work.runPlain m (Work.begin (s.readingStatics op (st.take (roleOf s.geometry k) (s.store.frame c.frame).statics) todo)) := by
    rw [Work.runPlain_step m (w := Work.begin (s.readingStatics op st (.readStatic k :: todo)))
      (r := { Running.of op (.readStatic k :: todo) with statics := st }) rfl rfl rfl, access_readStatic ho hc clean hk]
  have done (m : Nat) (st : Statics) : Work.runPlain m (Work.begin (s.readingStatics op st [])) = Work.begin (s.readingStatics op st []) :=
    Work.runPlain_done m (r := { Running.of op [] with statics := st }) rfl rfl
  rw [begun]
  unfold Frame.staticsRead
  cases hg : s.geometry with
  | standard =>
    have first : 1 < frameSize s.geometry := by rw [hg]; decide
    have third : 3 < frameSize s.geometry := by rw [hg]; decide
    have limit : accessLimit = 126 + 1 + 1 := rfl
    refine (congrArg (fun n => Work.runPlain n _) limit).trans ((one 127 1 first _ _).trans ((one 126 3 third _ _).trans ((done 126 _).trans ?_)))
    rw [hg]
    rfl
  | compact =>
    have first : 1 < frameSize s.geometry := by rw [hg]; decide
    have limit : accessLimit = 127 + 1 := rfl
    refine (congrArg (fun n => Work.runPlain n _) limit).trans ((one 127 1 first _ _).trans ((done 127 _).trans ?_))
    rw [hg]
    rfl

/-- The read of word 1 alone, for a heat level (R22). -/
theorem runPlain_levelRead (ho : op.recordPocket = some p) (hc : s.ctx p = some c) (clean : s.frameClean c.frame)
    (h : s.serving op [.readStatic 1]) :
    ∃ st : Statics, st.level = (s.store.frame c.frame).level ∧ Work.runPlain accessLimit (Work.begin s) = Work.begin (s.readingStatics op st []) := by
  refine ⟨Statics.take ⟨1, Options.none, 0, none⟩ (roleOf s.geometry 1) (s.store.frame c.frame).statics, by rw [roleOf_one]; rfl, ?_⟩
  have begun : Work.begin s = Work.begin (s.readingStatics op ⟨1, Options.none, 0, none⟩ [.readStatic 1]) :=
    congrArg Work.begin ((congrArg s.withCurrent h :))
  have first : 1 < frameSize s.geometry := by cases s.geometry <;> decide
  have limit : accessLimit = 127 + 1 := rfl
  rw [begun, limit, Work.runPlain_step 127 (w := Work.begin (s.readingStatics op ⟨1, Options.none, 0, none⟩ [.readStatic 1]))
    (r := Running.of op [.readStatic 1]) rfl rfl rfl, access_readStatic ho hc clean first]
  exact Work.runPlain_done 127 (r := { Running.of op [] with statics := _ }) rfl rfl

/-- The end of a static read whose accesses have led to `t`. -/
theorem exec_staticReadEnd {todo : List Access} {st : Statics} (hp : s.powered = true) (h : s.serving op todo)
    (ho : (∃ q why, op = .staticRead q why) ∨ ∃ q copy, op = .lookupRead q copy)
    (run : Work.runPlain accessLimit (Work.begin s) = Work.begin (s.readingStatics op st [])) :
    exec (.staticReadEnd noFailures) s = .next (((Work.begin (s.readingStatics op st [])).recordOpEnds { Running.of op [] with statics := st } st).endOp
      { Running.of op [] with statics := st }).finish := by
  have e : exec (.staticReadEnd noFailures) s = execStaticReadEnd noFailures s := rfl
  rw [e, execStaticReadEnd, powered_on hp, Work.endWhere_done (w := Work.begin s) (found := noFailures) h
    (by rcases ho with ⟨q, why, rfl⟩ | ⟨q, copy, rfl⟩ <;> rfl) run rfl rfl]
  rfl

end

/-! ### The crease is set up (R71) -/

section
variable {w : Work} {s : State} {p : Pocket} {c : Context}

/-- A checkpoint that waits is not demanded again (R61). -/
theorem State.demanded_demanded (s : State) (p : Pocket) (c d : Context) : (s.demanded p c).demanded p d = s.demanded p c := by
  have queued : (s.demanded p c).checkpointQueued p = true := by
    unfold State.demanded
    split
    · assumption
    · exact List.any_eq_true.2 ⟨.checkpoint p, List.mem_append_right _ (List.mem_singleton.2 rfl), by simp [StoreOp.isCheckpointOf]⟩
  rw [State.demanded, if_pos queued]

/-- The state in which the crease has been set up from the statics `x`, or the record has gone on to DONE (R71, R77). -/
def State.creaseSetUp (s : State) (p : Pocket) (c : Context) (x : Statics) : State :=
  if creaseOn x.options (s.effectivePlan x.plan) then s.withCtx p (some (c.creased (s.effectivePlan x.plan)))
  else (s.creaseDone p c).demanded p c.creaseDone

theorem State.Near.setUpCrease (h : w.Near s) (ha : s.part = .active) (hc : s.ctx p = some c) (x : Statics) :
    (w.setUpCrease p x).Near (s.creaseSetUp p c x) := by
  have plan : w.effectivePlan x.plan = s.effectivePlan x.plan := (congrArg (State.effectivePlan · x.plan) h.view :)
  unfold Work.setUpCrease State.creaseSetUp
  dsimp only
  rw [plan]
  split
  · exact h.onCtx hc _
  · exact (h.leaveCrease hc).demandCheckpoint ((State.creaseDone_part s p c).trans ha) (State.creaseDone_ctx s p c)

/-- The same once a checkpoint has been demanded. -/
def State.creaseEntered (s : State) (p : Pocket) (c : Context) (x : Statics) : State :=
  if creaseOn x.options (s.effectivePlan x.plan) then
    (s.withCtx p (some (c.creased (s.effectivePlan x.plan)))).demanded p (c.creased (s.effectivePlan x.plan))
  else (s.creaseDone p c).demanded p c.creaseDone

theorem State.creaseSetUp_part (s : State) (p : Pocket) (c : Context) (x : Statics) : (s.creaseSetUp p c x).part = s.part := by
  unfold State.creaseSetUp
  split
  · rfl
  · exact (State.demanded_part _ _ _).trans (State.creaseDone_part s p c)

theorem State.creaseEntered_part (s : State) (p : Pocket) (c : Context) (x : Statics) : (s.creaseEntered p c x).part = s.part := by
  unfold State.creaseEntered
  split
  · exact State.demanded_part _ _ _
  · exact (State.demanded_part _ _ _).trans (State.creaseDone_part s p c)

theorem Work.setUpCrease_asks (h : w.request p = none) (x : Statics) : (w.setUpCrease p x).request p = none := by
  unfold Work.setUpCrease
  dsimp only
  split
  · unfold State.request
    rw [Work.onCtx_arb]
    exact h
  · unfold State.request
    rw [Work.demandCheckpoint_arb, Work.leaveCrease_eq, Work.rederive_arb]
    exact w.quitCrease_asks p

theorem State.Near.creaseEntered (h : w.Near (s.creaseSetUp p c x)) (ha : s.part = .active) :
    (w.demandCheckpoint p).Near (s.creaseEntered p c x) := by
  unfold State.creaseEntered
  unfold State.creaseSetUp at h
  split
  · next on =>
    rw [if_pos on] at h
    exact h.demandCheckpoint ha (State.ctx_withCtx _ _ _)
  · next off =>
    rw [if_neg off] at h
    have again := h.demandCheckpoint ((State.demanded_part _ _ _).trans ((State.creaseDone_part s p c).trans ha))
      (State.demanded_ctx (State.creaseDone_ctx s p c))
    rw [State.demanded_demanded] at again
    exact again

/-- A heat level that has been read is desired from then on and calls for nothing more while a HEAT_ON at it waits (R22, R96). -/
theorem Work.rederive_still (held : w.room = none) (acts : w.converges p = true) (desired : w.heatDesired p = true) (unlost : (w.pocketLink p).heatLost = false)
    (queued : w.heatOnQueued p (w.desiredLevel p) = true) : w.rederive p = w := by
  have motor : w.motorDesired p = true ∧ (w.pocketLink p).motorBelieved = true := by
    unfold State.heatDesired at desired
    split at desired
    · simp at desired
    · next c hc =>
      simp only [Bool.and_eq_true, beq_iff_eq, State.motorConfirmed] at desired
      obtain ⟨⟨hold, heat⟩, confirmed⟩ := desired
      rw [State.motorDesired_iff hc]
      exact ⟨by simp [Context.wantsMotor, hold, heat], confirmed.1⟩
  have opens : w.heatOpen p = false := by simp [State.heatOpen, queued]
  have one : w.convergeOne p = w := by
    have still : w.convergeMotor p = w := by
      unfold Work.convergeMotor
      rw [if_neg (by simp [State.wantsStop, motor.1]), if_neg (by simp [State.wantsRun, motor.2])]
    unfold Work.convergeOne
    rw [if_pos acts, still]
    unfold Work.convergeHeat
    rw [if_neg (by simp [State.wantsHeatOff, desired]), if_pos desired, if_neg (by simp [unlost])]
    unfold Work.convergeLevel
    rw [if_neg (by simp [State.wantsHeatOn, opens]), if_neg (by simp [State.wantsLevel, opens])]
  unfold Work.rederive Work.converge
  dsimp only
  rw [one, Work.admitHeld, held]
  dsimp only
  rw [if_pos motor.1]

end

/-! ### O21 -/

section
variable {s : State} {p : Pocket} {c : Context} {x : Statics} {r : Running}

theorem State.creaseLeft_freed (s : State) (p : Pocket) (c : Context) (st : Statics) (op : StoreOp) :
    ((s.readingStatics op st []).creaseLeft p c).storeFreed = s.storeFreed.creaseLeft p c := by
  unfold State.creaseLeft
  rw [State.storeFreed_markedIf, State.storeFreed_markedIf]
  rfl

/-- The fields of a context whose cool length of 0 took it on to CREASE (R7). -/
def Context.coolSkipped (c : Context) (n : Nat) : Context :=
  { c.change (fun f => { f with cool := n }) with awaitCool := false }.change fun f => { f with phase := .crease, progress := none }

theorem Work.fillRead_coolExit {w : Work} (hc : w.ctx p = some c) (crease : c.fast.phase = .crease) (fresh : c.fast.progress = none) :
    w.fillRead p x .coolExit = (w.setUpCrease p x).rederive p := by
  unfold Work.fillRead
  rw [hc]
  exact if_pos ⟨crease, by rw [fresh]; rfl⟩

theorem Work.fillRead_heatExit {w : Work} (hc : w.ctx p = some c) (cool : c.fast.phase = .cool) (waits : c.awaitCool = true) :
    w.fillRead p x .heatExit =
      let v := w.onCtx p fun c => { c.change (fun f => { f with cool := x.coolLength }) with awaitCool := false }
      if x.coolLength = 0 then (((((v.onFast p fun f => { f with phase := .crease, progress := none }).removeRequest p).setUpCrease p x).demandCheckpoint
        p).rederive p) else v := by
  unfold Work.fillRead
  rw [hc]
  exact if_pos ⟨cool, waits⟩

theorem State.creaseLeft_withCtx (s : State) (p : Pocket) (c d : Context) : (s.withCtx p (some d)).creaseLeft p c = s.creaseLeft p c := by
  have due (x : Context) : (s.withCtx p (some d)).due p x = s.due p x := rfl
  rw [State.creaseLeft, State.withCtx_withCtx, due]
  rfl

/-- The crease is set up, or left, at the end of a static read. -/
theorem creaseSetUp_freed (s : State) (p : Pocket) (c : Context) (st : Statics) (op : StoreOp) :
    ((s.readingStatics op st []).creaseSetUp p c x).storeFreed.offLink =
      State.offLink (if creaseOn x.options (s.effectivePlan x.plan) then s.storeFreed.withCtx p (some (c.creased (s.effectivePlan x.plan)))
        else s.storeFreed.creaseLeft p c) := by
  unfold State.creaseSetUp
  have plan : (s.readingStatics op st []).effectivePlan x.plan = s.effectivePlan x.plan := rfl
  rw [plan]
  split
  · rfl
  · refine (congrArg (fun t : State => t.storeFreed) (State.demanded_offLink (State.creaseDone_ctx _ p c)) :).trans ?_
    rw [State.creaseDone_due]
    exact congrArg State.offLink (State.creaseLeft_freed s p c st op)

/-- What the static read of a cool exit leaves (R71, R77). -/
theorem coolExitRead_ends {w : Work} (near : w.Near s) (ha : s.part = .active) (hc : s.ctx p = some c) (crease : c.fast.phase = .crease)
    (fresh : c.fast.progress = none) (r : Running) :
    ((w.fillRead p x .coolExit).endOp r).finish.offGrant = (s.creaseSetUp p c x).storeFreed.offGrant := by
  rw [Work.fillRead_coolExit ((near.ctx p).trans hc) crease fresh]
  exact (((near.setUpCrease ha hc x).rederive p).endOp ((State.creaseSetUp_part s p c x).trans ha) r).finish

theorem Work.endOp_request {w : Work} (ha : w.part = .active) (r : Running) (q : Pocket) : (w.endOp r).request q = w.request q := by
  rw [Work.endOp_active ha]
  rfl

/-- What the static read of a HEAT exit leaves whose cool length is 0 (R7). -/
theorem heatExitRead_ends {w : Work} (near : w.Near s) (ha : s.part = .active) (hc : s.ctx p = some c) (cool : c.fast.phase = .cool)
    (waits : c.awaitCool = true) (zero : x.coolLength = 0) (r : Running) :
    ((w.fillRead p x .heatExit).endOp r).finish.request p = none ∧
    ((w.fillRead p x .heatExit).endOp r).finish.offGrant = State.offGrant (State.storeFreed
      (if creaseOn x.options (s.effectivePlan x.plan) then s.withCtx p (some (s.due p ((c.coolSkipped 0).creased (s.effectivePlan x.plan))))
        else s.creaseLeft p (c.coolSkipped 0))) := by
  rw [Work.fillRead_heatExit ((near.ctx p).trans hc) cool waits]
  dsimp only
  rw [if_pos zero, zero]
  generalize hv : ((w.onCtx p fun c => { c.change (fun f => { f with cool := 0 }) with awaitCool := false }).onFast p
    fun f => { f with phase := .crease, progress := none }).removeRequest p = v
  have entered : v.Near (s.withCtx p (some (c.coolSkipped 0))) := by
    rw [← hv, ← State.withCtx_withCtx s p (some { c.change (fun f => { f with cool := 0 }) with awaitCool := false })]
    exact ((near.onCtx hc _).onFast (State.ctx_withCtx _ _ _) _).removeRequest p
  have asks : v.request p = none := by
    rw [← hv]
    exact upd_self _ _ _
  have part : (s.withCtx p (some (c.coolSkipped 0))).part = .active := ha
  have ctx := State.ctx_withCtx s p (some (c.coolSkipped 0))
  have ready := (entered.setUpCrease part ctx x).creaseEntered part
  have active := (State.creaseEntered_part (s.withCtx p (some (c.coolSkipped 0))) p (c.coolSkipped 0) x).trans part
  refine ⟨Work.finish_request_none ?_, ((ready.rederive p).endOp active r).finish.trans (State.offGrant_of_offLink ?_)⟩
  · rw [Work.endOp_request ((ready.rederive p).part.trans active), State.request, Work.rederive_arb, Work.demandCheckpoint_arb]
    exact Work.setUpCrease_asks asks x
  · have plan : (s.withCtx p (some (c.coolSkipped 0))).effectivePlan x.plan = s.effectivePlan x.plan := rfl
    rw [State.creaseEntered, plan]
    split
    · refine (congrArg (fun t : State => t.storeFreed) (State.demanded_offLink (State.ctx_withCtx _ _ _)) :).trans ?_
      rw [State.withCtx_withCtx, State.withCtx_withCtx]
      rfl
    · refine (congrArg (fun t : State => t.storeFreed) (State.demanded_offLink (State.creaseDone_ctx _ _ _)) :).trans ?_
      rw [State.creaseDone_due, State.creaseLeft_withCtx]
      rfl

end

/-- The state with the level of the HEAT_ON of `p` that waits for it filled in (R22). -/
def State.levelRead (s : State) (p : Pocket) (c : Context) (n : Nat) : State :=
  { s.withCtx p (some { c with heatLevel := some n }) with
    link := { s.link with
      queue := s.link.queue.map fun e =>
        if e.isFor p && e.kind == .heatOn && e.level.isNone then { e with level := some n } else e } }

/-- A heat level that is filled in calls for nothing more (R22, R96). -/
theorem fillRead_heatLevel_still {s : State} {p : Pocket} {c : Context} {x : Statics} (ha : s.part = .active) (hc : s.ctx p = some c)
    (online : (s.pocketLink p).state = .online) (desired : s.heatDesired p = true) (unlost : (s.pocketLink p).heatLost = false)
    (queued : ∃ e ∈ s.link.queue, e.isFor p = true ∧ e.kind = .heatOn ∧ e.level = none) :
    (Work.begin s).fillRead p x .heatLevel = Work.begin (s.levelRead p c x.level) := by
  have read : (Work.begin s).fillRead p x .heatLevel = (Work.begin (s.levelRead p c x.level)).rederive p := by
    have ctx : (Work.begin s).ctx p = some c := hc
    unfold Work.fillRead
    rw [ctx]
    dsimp only
    rw [Work.onCtx_of_ctx ctx]
    rfl
  have held : (s.levelRead p c x.level).ctx p = some { c with heatLevel := some x.level } := upd_self _ _ _
  rw [read]
  refine Work.rederive_still rfl ?_ ?_ unlost ?_
  · show (s.part == .active && (s.pocketLink p).state == .online) = true
    rw [ha, online]
    rfl
  · have same : (s.levelRead p c x.level).heatDesired p = s.heatDesired p := by
      unfold State.heatDesired
      rw [held, hc]
      rfl
    exact same.trans desired
  · obtain ⟨e, he, own, kind, unread⟩ := queued
    have wants : (s.levelRead p c x.level).desiredLevel p = some x.level := by
      unfold State.desiredLevel
      rw [held]
      rfl
    refine List.any_eq_true.2 ⟨{ e with level := some x.level }, List.mem_map.2 ⟨e, he, if_pos (by simp [own, kind, unread])⟩, ?_⟩
    have belongs : Entry.isFor { e with level := some x.level } p = true := own
    rw [belongs]
    simp [kind, wants]

/-- Settles O21. -/
theorem staticReadsGiveTheirFields : Obligations.StaticReadsGiveTheirFields := by
  unfold Obligations.StaticReadsGiveTheirFields
  intro p c copy s hp ha hc clean x plan whole ended entered
  have effective : s.effectivePlan (x.staticsRead s.geometry).plan = plan := effectivePlan_staticsRead s x
  refine ⟨fun h => ?_, fun h cool waits => ⟨fun more => ?_, fun zero => ?_⟩, fun h crease fresh => ?_, fun h online desired held unlost queued => ?_⟩
  · refine (exec_staticReadEnd hp h (.inr ⟨_, _, rfl⟩) (runPlain_staticRead rfl hc clean h)).trans (congrArg Host.Outcome.next ?_)
    refine (Work.respond_endOp_finish (s := s) ha _ _ _ _).trans ?_
    have image : State.lookupImage (s.readingStatics (.lookupRead p copy) (x.staticsRead s.geometry) [])
        { Running.of (.lookupRead p copy) [] with statics := x.staticsRead s.geometry } p copy (x.staticsRead s.geometry) =
        imageBytes s.geometry p.val copy.gen x.statics copy.fast copy.shadow copy.writeOpen c.pinned := by
      have context : ((s.readingStatics (.lookupRead p copy) (x.staticsRead s.geometry) []).opContext
          { Running.of (.lookupRead p copy) [] with statics := x.staticsRead s.geometry }) = some c := hc
      unfold State.lookupImage
      rw [context]
      exact imageBytes_staticsRead _ _ _ _ _ _ _ _
    exact congrArg (State.replied s.storeFreed .ok) image
  · refine (exec_staticReadEnd hp h (.inl ⟨_, _, rfl⟩) (runPlain_staticRead rfl hc clean h)).trans (congrArg Host.Outcome.next ?_)
    show (Work.endOp (Work.fillRead _ p (x.staticsRead s.geometry) .heatExit) _).finish = _
    rw [Work.fillRead_heatExit (by exact hc) cool waits]
    dsimp only
    rw [if_neg (by exact more), Work.onCtx_of_ctx (by exact hc), Work.endOp_finish_of_quiet (by exact ha) rfl]
    rfl
  · refine ⟨_, exec_staticReadEnd hp h (.inl ⟨_, _, rfl⟩) (runPlain_staticRead rfl hc clean h), ?_⟩
    obtain ⟨asks, view⟩ := heatExitRead_ends (x := x.staticsRead s.geometry)
      (State.Near.refl (s.readingStatics (.staticRead p [.heatExit]) (x.staticsRead s.geometry) [])) (w := Work.begin _) ha hc cool waits zero
      { Running.of (.staticRead p [.heatExit]) [] with statics := x.staticsRead s.geometry }
    refine ⟨asks, view.trans (congrArg State.offGrant ?_)⟩
    have same : (s.readingStatics (.staticRead p [.heatExit]) (x.staticsRead s.geometry) []).effectivePlan (x.staticsRead s.geometry).plan = plan := effective
    rw [same]
    show State.storeFreed (if creaseOn x.options plan then _ else _) = if creaseOn x.options plan then _ else _
    split
    · rfl
    · exact State.creaseLeft_freed _ _ _ _ _
  · refine ⟨_, exec_staticReadEnd hp h (.inl ⟨_, _, rfl⟩) (runPlain_staticRead rfl hc clean h), ?_⟩
    have view := coolExitRead_ends (x := x.staticsRead s.geometry)
      (State.Near.refl (s.readingStatics (.staticRead p [.coolExit]) (x.staticsRead s.geometry) [])) (w := Work.begin _) ha hc crease fresh
      { Running.of (.staticRead p [.coolExit]) [] with statics := x.staticsRead s.geometry }
    refine view.trans ((State.offGrant_of_offLink (creaseSetUp_freed s p c _ _)).trans ?_)
    rw [effective]
    rfl
  · obtain ⟨st, level, run⟩ := runPlain_levelRead rfl hc clean h
    refine (exec_staticReadEnd hp h (.inl ⟨_, _, rfl⟩) run).trans (congrArg Host.Outcome.next ?_)
    show (Work.endOp (Work.fillRead (Work.begin (s.readingStatics (.staticRead p [.heatLevel]) st [])) p st .heatLevel) _).finish = _
    rw [fillRead_heatLevel_still (s := s.readingStatics (.staticRead p [.heatLevel]) st []) ha hc online desired unlost queued,
      Work.endOp_finish_of_quiet (by exact ha) rfl, level]
    rfl

end Sys2Proof.Machine
end
section
/-! SUPPORT. Frames that are written whole, word by word (section 2.2). -/

namespace Sys2Proof.Machine

/-- A frame whose words of `l` have been written whole with what `src` holds. -/
def Frame.copied (g : Geometry) (src : Frame) (l : List Nat) (old : Frame) : Frame := l.foldl (fun y k => Frame.copyWord (roleOf g k) src y) old

/-- The words of a frame but its header. -/
def bodyWords (g : Geometry) : List Nat := (List.range (frameSize g)).drop 1

theorem Fast.blend_all (new old : Fast) : Fast.blend (allFields .standard) new old = new := rfl

theorem Frame.copied_body (g : Geometry) (src old : Frame) :
    Frame.copied g src (bodyWords g) old = { Frame.rewritten g src old with header := old.header } := by
  cases g with
  | standard =>
    have words : bodyWords .standard = [1, 2, 3, 4, 5, 6, 7, 8, 9, 10, 11, 12, 13, 14, 15] := rfl
    rw [words]
    simp only [Frame.copied, List.foldl_cons, List.foldl_nil, roleOf, Frame.copyWord, Fast.blend_blend]
    exact congrArg (fun f : Fast => ({ src with header := old.header, fast := f } : Frame)) (Fast.blend_all src.fast old.fast)
  | compact =>
    have words : bodyWords .compact = [1, 2, 3, 4, 5, 6, 7] := rfl
    rw [words]
    simp only [Frame.copied, List.foldl_cons, List.foldl_nil, roleOf, Frame.copyWord, Fast.blend_blend]
    rfl

theorem bodyWords_lt {g : Geometry} {k : Nat} (h : k ∈ bodyWords g) : k < frameSize g := List.mem_range.1 (List.mem_of_mem_drop h)

theorem bodyWords_length (g : Geometry) : (bodyWords g).length ≤ 15 := by cases g <;> decide

/-! ### OPEN (R44) -/

/-- OPEN of a record under way into frame `f`, which holds `x`, with the accesses `todo` still to make. -/
def Work.opening (w : Work) (op : StoreOp) (f : Nat) (x : Frame) (todo : List Access) : Work :=
  { w with store := w.store.setFrame f x, ctl := { w.ctl with current := some { Running.of op todo with target := f } } }

section
variable {w : Work} {p : Pocket} {gen heat f : Nat} {args : Statics} {clamped : Bool} {op : StoreOp}

theorem Work.opening_clean (clean : w.frameClean f) (x : Frame) (todo : List Access) {k : Nat} (hk : k < frameSize w.geometry) :
    (w.opening op f x todo).store.flaw (frameWord w.geometry f k) = none := (Store.setFrame_flaw _ _ _ _).trans (clean k hk)

theorem Work.opening_access (ho : op = .openRecord p gen args heat clamped) (x : Frame) (a : Access) (todo : List Access) :
    (w.opening op f x (a :: todo)).access = Work.plainAccess (w.opening op f x todo) { Running.of op todo with target := f } a := by
  subst ho
  exact Work.access_plain (r := { Running.of _ (a :: todo) with target := f }) rfl rfl rfl

/-- One body word of the new frame. -/
theorem Work.opening_write (ho : op = .openRecord p gen args heat clamped) (hf : f < 48) (clean : w.frameClean f) (x : Frame) {k : Nat}
    (hk : k < frameSize w.geometry) (todo : List Access) :
    (w.opening op f x (.openWrite k :: todo)).access =
      w.opening op f (Frame.copyWord (roleOf w.geometry k) (w.openFrame args heat) x) todo := by
  rw [Work.opening_access ho]
  have write : Work.plainAccess (w.opening op f x todo) { Running.of op todo with target := f } (.openWrite k) =
      (w.opening op f x todo).writeFrameWord f k (w.openFrame args heat) := by
    subst ho
    rfl
  rw [write, Work.writeFrameWord_clean (Work.opening_clean clean x todo hk)]
  have held : (w.opening op f x todo).store.frame f = x := Store.frame_setFrame_self hf x
  rw [held]
  unfold Work.opening
  dsimp only
  rw [Store.setFrame_setFrame]
  rfl

theorem Work.runPlain_openWrites (ho : op = .openRecord p gen args heat clamped) (hf : f < 48) (clean : w.frameClean f) (rest : List Access) (m : Nat)
    (l : List Nat) : ∀ x, (∀ k ∈ l, k < frameSize w.geometry) →
      Work.runPlain (l.length + m) (w.opening op f x (l.map Access.openWrite ++ rest)) =
        Work.runPlain m (w.opening op f (Frame.copied w.geometry (w.openFrame args heat) l x) rest) := by
  induction l with
  | nil =>
    intro x _
    rw [List.length_nil, Nat.zero_add]
    rfl
  | cons k l ih =>
    intro x hl
    obtain ⟨hk, hl⟩ := List.forall_mem_cons.1 hl
    rw [List.length_cons, Nat.add_right_comm, Work.runPlain_step _ (r := { Running.of op ((k :: l).map Access.openWrite ++ rest) with target := f }) rfl rfl rfl,
      List.map_cons, List.cons_append, Work.opening_write ho hf clean x hk, ih _ hl]
    rfl

/-- The header of a new record (R44). -/
def openHead (p : Pocket) (gen up : Nat) : Header := { state := .live, writeOpen := false, saved := false, pocket := p.val, gen := gen, stamp := up }

theorem Work.opening_header (ho : op = .openRecord p gen args heat clamped) (hf : f < 48) (clean : w.frameClean f) (x : Frame) (todo : List Access) :
    (w.opening op f x (.openHeader :: todo)).access = w.opening op f { x with header := openHead p gen w.sup.uptime } todo := by
  have size : 0 < frameSize w.geometry := by cases w.geometry <;> decide
  have write : Work.plainAccess (w.opening op f x todo) { Running.of op todo with target := f } .openHeader =
      (w.opening op f x todo).writeHeader f (openHead p gen w.sup.uptime) := by
    subst ho
    rfl
  rw [Work.opening_access ho, write, Work.writeHeader_clean (Work.opening_clean clean x todo size)]
  have held : (w.opening op f x todo).store.frame f = x := Store.frame_setFrame_self hf x
  rw [held]
  unfold Work.opening
  dsimp only
  rw [Store.setFrame_setFrame]

/-- The frame of a new record, written over `old`. -/
def Work.opened (w : Work) (p : Pocket) (gen heat : Nat) (args : Statics) (old : Frame) : Frame :=
  { Frame.rewritten w.geometry (w.openFrame args heat) old with header := openHead p gen w.sup.uptime }

/-- OPEN with every access made and its read-back judged (R37). -/
def Running.opened (op : StoreOp) (f : Nat) (good : Bool) : Running := { Running.of op [] with target := f, good := good }

theorem Store.setFrame_frame (s : Store) (f : Nat) : s.setFrame f (s.frame f) = s := by
  unfold Store.setFrame
  split
  · next hf =>
    have held : s.frame f = s.frames[f] := dif_pos hf
    rw [held]
    simp
  · rfl

/-- The accesses of OPEN, of which the map write comes last and leads to `v`. -/
theorem Work.runPlain_open (ho : op = .openRecord p gen args heat clamped) (hf : f < 48) (clean : w.frameClean f)
    (hr : w.ctl.current = some { Running.of op (openTodo w.geometry) with target := f }) {v : Work}
    (hv : (w.opening op f (w.opened p gen heat args (w.store.frame f)) []).writeMap p ⟨true, f, gen⟩ = v)
    (hc : v.ctl.current = some { Running.of op [] with target := f }) :
    Work.runPlain accessLimit w = { v with ctl := { v.ctl with current := some (Running.opened op f (v.mapGood p)) } } := by
  have begun : w = w.opening op f (w.store.frame f) ((bodyWords w.geometry).map Access.openWrite ++ [.openHeader, .openMap]) := by
    unfold Work.opening
    rw [Store.setFrame_frame]
    exact congrArg (fun x : Option Running => ({ w with ctl := { w.ctl with current := x } } : Work)) hr
  obtain ⟨m, len⟩ : ∃ m, accessLimit = (bodyWords w.geometry).length + (m + 1 + 1) := by
    have := bodyWords_length w.geometry
    exact ⟨accessLimit - 2 - (bodyWords w.geometry).length, by unfold accessLimit; omega⟩
  have write : Work.plainAccess (w.opening op f (w.opened p gen heat args (w.store.frame f)) []) { Running.of op [] with target := f } .openMap =
      { v with ctl := { v.ctl with current := some (Running.opened op f (v.mapGood p)) } } := by
    subst ho hv
    exact Work.onRun_of_current hc _
  conv_lhs => rw [begun]
  rw [len, Work.runPlain_openWrites ho hf clean _ _ _ _ fun _ => bodyWords_lt,
    Work.runPlain_step _ (r := { Running.of op [.openHeader, .openMap] with target := f }) rfl rfl rfl, Work.opening_header ho hf clean,
    Work.runPlain_step _ (r := { Running.of op [.openMap] with target := f }) rfl rfl rfl, Work.opening_access ho, Frame.copied_body]
  exact (congrArg (Work.runPlain m) write).trans (Work.runPlain_done m rfl rfl)

/-- OPEN ends (R24, R44). -/
theorem exec_openOperationEnd {s : State} {v : Work} (found : Findings) (hp : s.powered = true) (ho : op = .openRecord p gen args heat clamped)
    (hf : f < 48) (pre : found.pre = []) (clean : s.frameClean f) (hr : s.ctl.current = some { Running.of op (openTodo s.geometry) with target := f })
    (hv : (((Work.begin s).meet found).opening op f (((Work.begin s).meet found).opened p gen heat args (s.store.frame f)) []).writeMap p ⟨true, f, gen⟩ = v)
    (hc : v.ctl.current = some { Running.of op [] with target := f }) :
    exec (.openOperationEnd found) s = .next (Work.endOpen { v with ctl := { v.ctl with current := some (Running.opened op f (v.mapGood p)) } }
      (Running.opened op f (v.mapGood p)) p gen heat clamped).finish := by
  have e : exec (.openOperationEnd found) s = execOpenOperationEnd found s := rfl
  have met : (Work.begin s).meet found = { Work.begin s with post := found.post } := by
    unfold Work.meet Work.fail
    rw [pre]
    rfl
  rw [met] at hv
  have run := Work.runPlain_open (w := { Work.begin s with post := found.post }) ho hf clean hr hv hc
  rw [← met] at run
  rw [e, execOpenOperationEnd, powered_on hp, Work.endWhere_done (w := Work.begin s) hr (by subst ho; rfl) run rfl rfl]
  subst ho
  rfl

end

theorem Mask.has_put_self (m : Mask) (p : Pocket) : (m.put p true).has p = true := by
  simp [Mask.put, Mask.has]

theorem Work.mapPut_clean {w : Work} {p : Pocket} (h : w.store.flaw (mapWord p) = none) (e : MapEntry) :
    (w.mapPut p e).store.flaw (mapWord p) = none := by
  show (Store.setFlaw { w.store with map := upd w.store.map p e } (mapWord p) none).flaw (mapWord p) = none
  unfold Store.setFlaw
  rw [if_pos (mapWord_lt p)]
  exact (congrArg (List.lookup (mapWord p)) (putFlaw_clean h)).trans h

/-- The new record stands (R24). -/
theorem openEnds_good {v : Work} {s : State} {r : Running} {p : Pocket} {gen heat : Nat} {clamped : Bool} {c : Context} (near : v.Near s)
    (ha : s.part = .active) (hg : v.grant = false) (good : r.good = true) (hc : v.openContext r gen heat = c) :
    (v.endOpen r p gen heat clamped).finish.offLink =
      ((s.withCtx p (some c)).replied (if clamped then .okClamped else .ok) (beBytes 2 gen)).storeFreed.offLink := by
  unfold Work.endOpen
  rw [if_pos good, hc]
  have ended := (((near.setCtx p (some c)).rederive p).respond (if clamped then .okClamped else .ok) (beBytes 2 gen)).endOp ha r
  refine ended.finish_ungranted ?_
  rw [Work.endOp_active ((((near.setCtx p (some c)).rederive p).respond (if clamped then .okClamped else .ok) (beBytes 2 gen)).part.trans ha)]
  exact (Work.rederive_grant _ p).trans hg

/-- The map word of a new record could not be read back: its frame goes back (R24). -/
theorem openEnds_bad {v : Work} {r : Running} {p : Pocket} {gen heat : Nat} {clamped : Bool} (ha : v.part = .active) (loose : v.nonePinned)
    (quiet : v.quiet = true) (bad : r.good = false) :
    (v.endOpen r p gen heat clamped).finish = State.replied { v.toState with
      store := (v.store.setFrame r.target { v.store.frame r.target with header := v.withdrawnHeader r.target .free }).setFlaw
        (frameWord v.geometry r.target 0) none
      ctl := { v.ctl with mirror := upd v.ctl.mirror p ⟨false, 0, gen⟩, free := v.ctl.free ++ [r.target], current := none } } .mapFault [] := by
  unfold Work.endOpen
  rw [bad, if_neg Bool.false_ne_true]
  dsimp only
  rw [Work.freeFrame_unpinned (by exact ha) (by exact loose), Work.endOp_finish_of_quiet (by exact ha) (by exact quiet)]
  rfl

/-- Settles O26. -/
theorem openCreatesTheRecord : Obligations.OpenCreatesTheRecord := by
  unfold Obligations.OpenCreatesTheRecord
  intro p gen heat f args clamped s hp ha hf clean map unfaulted loose hr fast head x c
  generalize hop : StoreOp.openRecord p gen args heat clamped = op at hr
  have flaw (post : List (Nat × Flaw)) (y : Frame) :
      (Work.opening { Work.begin s with post := post } op f y []).store.flaw (mapWord p) = none := (Store.setFrame_flaw _ _ _ _).trans map
  have opened (post : List (Nat × Flaw)) : Work.opened { Work.begin s with post := post } p gen heat args (s.store.frame f) =
      x.rewritten s.geometry (s.store.frame f) := by
    show ({ Frame.rewritten s.geometry _ _ with header := _ } : Frame) = _
    cases s.geometry <;> rfl
  constructor
  · generalize hy : Work.opened { Work.begin s with post := [] } p gen heat args (s.store.frame f) = y
    have write := Work.writeMap_clean (flaw [] y) rfl ⟨true, f, gen⟩
    generalize hv : (Work.opening { Work.begin s with post := [] } op f y []).writeMap p ⟨true, f, gen⟩ = v at write
    have current : v.ctl.current = some { Running.of op [] with target := f } := by rw [write]; rfl
    have good : v.mapGood p = true := by
      refine State.readable_clean ?_
      rw [write]
      exact flaw [] y
    refine ⟨_, exec_openOperationEnd noFailures hp hop.symm hf rfl clean hr (by exact hy ▸ hv) current, ?_⟩
    have frame : v.store.frame f = y := by
      rw [write]
      exact Store.frame_setFrame_self hf y
    have stamp : y.header.stamp = s.sup.uptime := by
      rw [← hy]
      rfl
    have context : State.openContext ({ v with ctl := { v.ctl with current := some (Running.opened op f (v.mapGood p)) } } : Work).toState
        (Running.opened op f (v.mapGood p)) gen heat = c := by
      show ({ shadow := { stamp := (v.store.frame f).header.stamp, plan := none, saved := false }, .. } : Context) = c
      rw [frame, stamp, write]
      rfl
    refine (openEnds_good (State.Near.refl _) (by rw [write]; exact ha) (by rw [write]; rfl) good context).trans ?_
    rw [write, ← hy, opened]
    rfl
  · generalize hy : Work.opened { Work.begin s with post := [(mapWord p, .uncorrectable)] } p gen heat args (s.store.frame f) = y
    have write := Work.writeMap_unread (e := ⟨true, f, gen⟩) (Work.mapPut_clean (flaw [(mapWord p, .uncorrectable)] y) _) rfl
    generalize hv : (Work.opening { Work.begin s with post := [(mapWord p, .uncorrectable)] } op f y []).writeMap p ⟨true, f, gen⟩ = v at write
    obtain ⟨left, quiet⟩ := write
    have part : v.part = .active := left.part.trans ha
    refine ⟨_, exec_openOperationEnd ⟨[], [(mapWord p, .uncorrectable)]⟩ hp hop.symm hf rfl clean hr (by exact hy ▸ hv) left.current, ?_⟩
    have away : mapWord p ≠ frameWord v.geometry f 0 := by
      unfold mapWord frameWord
      omega
    have loose' : v.nonePinned := by
      unfold State.nonePinned State.ctx at *
      rw [left.ctxs]
      exact loose
    rw [openEnds_bad (by exact part) (by exact loose') (by exact quiet) left.bad]
    refine ⟨congrArg (·[p]) left.ctxs, ?_, rfl, left.told unfaulted, upd_self _ _ _, congrArg (· ++ [f]) left.free, ?_, ?_⟩
    · exact (congrArg (Mask.has · p) left.fault).trans (Mask.has_put_self _ _)
    · show ((Store.setFlaw (Store.setFrame v.store f _) _ none).frame f).header.state = .free
      rw [Store.setFlaw_frame, Store.frame_setFrame_self hf]
      rfl
    · exact (Store.flaw_setFlaw_other (v.store.setFrame f _) away none).trans ((Store.setFrame_flaw _ _ _ _).trans left.flaw)

end Sys2Proof.Machine
end
section
/-! SUPPORT. A move copies a record into its new frame (R42, R46). -/

namespace Sys2Proof.Machine

/-- A move of the record of `p` under way: its new frame holds `x`, the fields `taken` have been taken from context `c`, of which `since` have
changed since, `mv` says what has been read, and the accesses `todo` are still to make. -/
def Work.moving (w : Work) (p : Pocket) (c : Context) (x : Frame) (mv : MoveData) (todo : List Access) (taken since : FieldSet) : Work :=
  { w with store := w.store.setFrame mv.new x
           ctxs := upd w.ctxs p (some { c with since := since })
           ctl := { w.ctl with current := some { Running.of (.move p c.frame false) todo with taken := taken, move := some mv } } }

section
variable {w : Work} {p : Pocket} {c : Context} {x : Frame} {mv : MoveData} {taken since : FieldSet}

theorem Work.moving_clean {f : Nat} (clean : w.frameClean f) (todo : List Access) : (w.moving p c x mv todo taken since).frameClean f :=
  fun k hk => (Store.setFrame_flaw _ _ _ _).trans (clean k hk)

theorem Work.moving_new (hn : mv.new < 48) (todo : List Access) : (w.moving p c x mv todo taken since).store.frame mv.new = x :=
  Store.frame_setFrame_self hn x

theorem Work.moving_old (hn : mv.new < 48) {f : Nat} (other : f ≠ mv.new) (todo : List Access) :
    (w.moving p c x mv todo taken since).store.frame f = w.store.frame f := by
  show (w.store.setFrame mv.new x).frame f = _
  rw [Store.frame_setFrame _ _ _ _ hn, if_neg other]

theorem Work.moving_access (a : Access) (todo : List Access) :
    (w.moving p c x mv (a :: todo) taken since).access = Work.recordAccess (w.moving p c x mv todo taken since)
      { Running.of (.move p c.frame false) todo with taken := taken, move := some mv } p { c with since := since } a :=
  Work.access_record (r := { Running.of (.move p c.frame false) (a :: todo) with taken := taken, move := some mv }) rfl rfl rfl rfl (upd_self _ _ _)

theorem Work.onMove_moving (f : MoveData → MoveData) (hf : (f mv).new = mv.new) (todo : List Access) :
    (w.moving p c x mv todo taken since).onMove f = w.moving p c x (f mv) todo taken since := by
  unfold Work.onMove
  rw [Work.onRun_of_current rfl]
  unfold Work.moving
  rw [hf]
  rfl

/-- A static word of the old frame is read (R42). -/
theorem Work.moving_read (hn : mv.new < 48) (ho : mv.old ≠ mv.new) (clean : w.frameClean mv.old) {k : Nat} (hk : k < frameSize w.geometry) (todo : List Access) :
    (w.moving p c x mv (.moveRead k :: todo) taken since).access =
      w.moving p c x { mv with statics := mv.statics.take (roleOf w.geometry k) (w.store.frame mv.old).statics } todo taken since := by
  have flaw := Work.moving_clean (p := p) (c := c) (x := x) (mv := mv) (taken := taken) (since := since) clean todo k hk
  rw [Work.moving_access]
  show Work.moveRead (w.moving p c x mv todo taken since) mv _ k = _
  unfold Work.moveRead
  dsimp only
  rw [State.readable_clean flaw, if_pos rfl, Work.readWord_clean flaw, Work.onMove_moving _ rfl, Work.moving_old hn ho]
  rfl

theorem stampWord_lt (g : Geometry) : stampWord g < frameSize g := by cases g <;> decide

/-- The plan stamp and saved-at-outage of the old frame are read. -/
theorem Work.moving_readRest (hn : mv.new < 48) (ho : mv.old ≠ mv.new) (clean : w.frameClean mv.old) (hs : c.stampPending = false) (todo : List Access) :
    (w.moving p c x mv (.moveReadRest :: todo) taken since).access =
      w.moving p c x { mv with stamp := (w.store.frame mv.old).stamp, saved := (w.store.frame mv.old).header.saved } todo taken since := by
  have size : 0 < frameSize w.geometry := by cases w.geometry <;> decide
  have head := Work.moving_clean (p := p) (c := c) (x := x) (mv := mv) (taken := taken) (since := since) clean todo 0 size
  have stamp := Work.moving_clean (p := p) (c := c) (x := x) (mv := mv) (taken := taken) (since := since) clean todo _
    (stampWord_lt (w.moving p c x mv todo taken since).geometry)
  rw [Work.moving_access]
  show Work.moveReadRest (w.moving p c x mv todo taken since) { Running.of (.move p c.frame false) todo with taken := taken, move := some mv } mv { c with since := since } = _
  unfold Work.moveReadRest
  dsimp only
  rw [hs, if_neg Bool.false_ne_true, State.readable_clean stamp, State.readable_clean head, if_pos rfl, Work.readWord_clean stamp,
    Work.readWord_clean head, Work.moving_old hn ho, Work.onMove_moving _ rfl]
  rfl

/-- What a move writes into its new frame. -/
def Work.moveSource (c : Context) (mv : MoveData) : Frame := ({ Frame.blank with fast := c.fast, stamp := mv.stamp } : Frame).withStatics mv.statics

/-- One body word of the new frame. -/
theorem Work.moving_write (hn : mv.new < 48) (clean : w.frameClean mv.new) {k : Nat} (hk : k < frameSize w.geometry) (todo : List Access) :
    (w.moving p c x mv (.moveWrite k :: todo) taken since).access =
      w.moving p c (Frame.copyWord (roleOf w.geometry k) (Work.moveSource c mv) x) mv todo (taken ||| (roleOf w.geometry k).fields)
        (since &&& ~~~ (roleOf w.geometry k).fields) := by
  have flaw := Work.moving_clean (p := p) (c := c) (x := x) (mv := mv) (taken := taken) (since := since) clean todo k hk
  have ctx : (w.moving p c x mv todo taken since).ctx p = some { c with since := since } := upd_self _ _ _
  rw [Work.moving_access]
  show Work.moveWrite (w.moving p c x mv todo taken since) _ mv { c with since := since } k = _
  unfold Work.moveWrite
  dsimp only
  rw [Work.writeFrameWord_clean flaw, Work.moving_new hn, Work.carry_of_ctx (d := { c with since := since }) rfl rfl rfl (by exact ctx)]
  simp only [Work.moving, upd_upd, Store.setFrame_setFrame]
  rfl

theorem Work.runAll_moveWrites (hn : mv.new < 48) (clean : w.frameClean mv.new) (rest : List Access) (m : Nat) (l : List Nat) :
    ∀ (x : Frame) (taken since : FieldSet), since &&& taken = 0 → (∀ k ∈ l, k < frameSize w.geometry) →
      ∃ left, left &&& (l.foldl (fun m k => m ||| (roleOf w.geometry k).fields) taken) = 0 ∧
        Work.runAll (l.length + m) (w.moving p c x mv (l.map Access.moveWrite ++ rest) taken since) =
          Work.runAll m (w.moving p c (Frame.copied w.geometry (Work.moveSource c mv) l x) mv rest
            (l.foldl (fun m k => m ||| (roleOf w.geometry k).fields) taken) left) := by
  induction l with
  | nil =>
    intro x taken since h _
    exact ⟨since, h, by rw [List.length_nil, Nat.zero_add]; rfl⟩
  | cons k l ih =>
    intro x taken since h hl
    obtain ⟨hk, hl⟩ := List.forall_mem_cons.1 hl
    have apart : since &&& ~~~ (roleOf w.geometry k).fields &&& (taken ||| (roleOf w.geometry k).fields) = 0 := by
      generalize (roleOf w.geometry k).fields = g
      ext i hi
      have bit := congrArg (·[i]) h
      simp only [BitVec.getElem_and, BitVec.getElem_or, BitVec.getElem_not] at bit ⊢
      revert bit
      cases since[i] <;> cases taken[i] <;> cases g[i] <;> simp
    obtain ⟨left, disjoint, run⟩ := ih (Frame.copyWord (roleOf w.geometry k) (Work.moveSource c mv) x) _ _ apart hl
    refine ⟨left, disjoint, ?_⟩
    rw [List.length_cons, Nat.add_right_comm, Work.runAll_step _ (r := { Running.of (.move p c.frame false) ((k :: l).map Access.moveWrite ++ rest) with
      taken := taken, move := some mv }) rfl rfl, List.map_cons, List.cons_append, Work.moving_write hn clean hk, run]
    rfl

/-- The header of the new frame (R35). -/
theorem Work.moving_header (hn : mv.new < 48) (clean : w.frameClean mv.new) (todo : List Access) :
    (w.moving p c x mv (.moveHeader :: todo) taken since).access = w.moving p c { x with
      header := { state := .live, writeOpen := false, saved := mv.saved, pocket := p.val, gen := (w.ctl.mirror[p]).gen, stamp := w.sup.uptime } }
      mv todo taken since := by
  have size : 0 < frameSize w.geometry := by cases w.geometry <;> decide
  have flaw := Work.moving_clean (p := p) (c := c) (x := x) (mv := mv) (taken := taken) (since := since) clean todo 0 size
  rw [Work.moving_access]
  show Work.moveHeader (w.moving p c x mv todo taken since) mv p = _
  unfold Work.moveHeader
  rw [Work.writeHeader_clean flaw, Work.moving_new hn]
  unfold Work.moving
  dsimp only
  rw [Store.setFrame_setFrame]

/-- The context of a record that has been moved. -/
def Context.moved (c : Context) (mv : MoveData) (stamp : Nat) : Context :=
  { c with frame := mv.new, pinned := false, dirty := 0, since := 0, stampPending := false, commitMove := false
           shadow := { stamp := stamp, plan := mv.stamp, saved := mv.saved } }

/-- The state in which the map entry of `p` names the new frame, the old one is quarantined, and the operation in progress is `r` (R42). -/
def State.mapTurned (s : State) (p : Pocket) (c : Context) (x : Frame) (mv : MoveData) (r : Running) (q : List StoreOp) : State :=
  State.markedPart { (((s.withFrame mv.new x).withMap p ⟨true, mv.new, (s.ctl.mirror[p]).gen⟩).withCtx p (some (c.moved mv x.header.stamp))) with
    ctl := { s.ctl with
      mirror := upd s.ctl.mirror p ⟨true, mv.new, (s.ctl.mirror[p]).gen⟩, queue := q
      quarantine := s.ctl.quarantine ||| BitVec.twoPow 48 mv.old, current := some r } } .store

/-- The map entry is turned, the context names the new frame, and the old one is quarantined (R42, R46). -/
theorem Work.moving_map (hn : mv.new < 48) (map : w.store.flaw (mapWord p) = none) (hp : w.post = [])
    (all : c.dirty &&& ~~~ taken = 0) (h : since &&& taken = 0) (todo : List Access) :
    ∃ q, (w.moving p c x mv (.moveMap :: todo) taken since).access = w.over (w.mapTurned p c x mv
      { Running.of (.move p c.frame false) todo with taken := taken, move := some mv } q) := by
  have flaw : (w.moving p c x mv todo taken since).store.flaw (mapWord p) = none := (Store.setFrame_flaw _ _ _ _).trans map
  have dirty : c.dirty &&& ~~~ (taken &&& ~~~ since) = 0 := by
    ext i hi
    have bit := congrArg (·[i]) h
    have bit' := congrArg (·[i]) all
    simp only [BitVec.getElem_and, BitVec.getElem_not] at bit bit' ⊢
    revert bit bit'
    cases since[i] <;> cases taken[i] <;> cases c.dirty[i] <;> simp
  rw [Work.moving_access]
  show ∃ q, Work.moveMap (w.moving p c x mv todo taken since) { Running.of (.move p c.frame false) todo with taken := taken, move := some mv } mv p
    { c with since := since } = _
  unfold Work.moveMap
  dsimp only
  rw [Work.writeMap_clean flaw hp]
  generalize hv : ({ w.moving p c x mv todo taken since with
    store := { (w.moving p c x mv todo taken since).store with
      map := upd (w.moving p c x mv todo taken since).store.map p ⟨true, mv.new, ((w.moving p c x mv todo taken since).ctl.mirror[p]).gen⟩ }
    ctl := { (w.moving p c x mv todo taken since).ctl with
      mirror := upd (w.moving p c x mv todo taken since).ctl.mirror p ⟨true, mv.new, ((w.moving p c x mv todo taken since).ctl.mirror[p]).gen⟩ } } : Work) = v
  have frame : v.store.frame mv.new = x := by
    rw [← hv]
    exact Store.frame_setFrame_self hn x
  have ctx : v.ctx p = some { c with since := since } := by
    rw [← hv]
    exact upd_self _ _ _
  have moved : ({ Context.carried { c with since := since } { Running.of (.move p c.frame false) todo with taken := taken, move := some mv } with
      frame := mv.new, pinned := false, commitMove := false
      shadow := { stamp := x.header.stamp, plan := mv.stamp, saved := mv.saved } } : Context) = c.moved mv x.header.stamp := by
    unfold Context.carried Context.moved
    dsimp only
    rw [dirty]
  rw [frame, Work.onOpContext_of_ctx rfl rfl ctx, moved, ← hv]
  unfold Work.moving
  dsimp only
  rw [upd_upd]
  cases c.pinned with
  | false => exact ⟨_, rfl⟩
  | true => exact ⟨_, rfl⟩

/-- The header of the old frame is written QUARANTINED (R42). -/
theorem Work.mapTurned_oldHeader {s : State} (other : mv.old ≠ mv.new) (hn : mv.new < 48) (clean : s.frameClean mv.old) {r : Running}
    (hr : r.todo = [.moveOldHeader]) (hop : r.op = .move p c.frame false) (hstash : r.stash = none) (hmove : r.move = some mv) (q : List StoreOp) :
    (w.over (s.mapTurned p c x mv r q)).access = w.over ((s.mapTurned p c x mv { r with todo := [] } q).withFrame mv.old { s.store.frame mv.old with
      header := { (s.store.frame mv.old).header with state := .quarantined, writeOpen := false, saved := false } }) := by
  have size : 0 < frameSize s.geometry := by cases s.geometry <;> decide
  have ctx : (w.over (s.mapTurned p c x mv r q)).ctx p = some (c.moved mv x.header.stamp) := upd_self _ _ _
  rw [Work.access_record (w := w.over (s.mapTurned p c x mv r q)) (r := r) rfl hr (by rw [hop]; rfl) hstash ctx]
  generalize hv : ({ w.over (s.mapTurned p c x mv r q) with
    ctl := { (w.over (s.mapTurned p c x mv r q)).ctl with current := some { r with todo := [] } } } : Work) = v
  have flaw : v.store.flaw (frameWord v.geometry mv.old 0) = none := by
    rw [← hv]
    exact (Store.setFrame_flaw _ _ _ _).trans (clean 0 size)
  have held : v.store.frame mv.old = s.store.frame mv.old := by
    rw [← hv]
    show (s.store.setFrame mv.new x).frame mv.old = _
    rw [Store.frame_setFrame _ _ _ _ hn, if_neg other]
  have write : v.recordAccess { r with todo := [] } p (c.moved mv x.header.stamp) .moveOldHeader =
      v.writeHeader mv.old (v.withdrawnHeader mv.old .quarantined) := by
    unfold Work.recordAccess
    rw [hmove]
  rw [write, Work.writeHeader_clean flaw, State.withdrawnHeader, if_pos (.inr (State.readable_clean flaw)), held, ← hv]
  rfl

theorem Work.runAll_moveReads (hn : mv.new < 48) (ho : mv.old ≠ mv.new) (rest : List Access) (m : Nat) (l : List Nat) :
    ∀ st, w.frameClean mv.old → (∀ k ∈ l, k < frameSize w.geometry) →
      Work.runAll (l.length + m) (w.moving p c x { mv with statics := st } (l.map Access.moveRead ++ rest) taken since) =
        Work.runAll m (w.moving p c x { mv with statics := l.foldl (fun st k => st.take (roleOf w.geometry k) (w.store.frame mv.old).statics) st } rest
          taken since) := by
  induction l with
  | nil =>
    intro st _ _
    rw [List.length_nil, Nat.zero_add]
    rfl
  | cons k l ih =>
    intro st clean hl
    obtain ⟨hk, hl⟩ := List.forall_mem_cons.1 hl
    rw [List.length_cons, Nat.add_right_comm, Work.runAll_step _ (r := { Running.of (.move p c.frame false) ((k :: l).map Access.moveRead ++ rest) with
      taken := taken, move := some { mv with statics := st } }) rfl rfl, List.map_cons, List.cons_append,
      Work.moving_read (mv := { mv with statics := st }) hn ho clean hk]
    exact ih _ clean hl

end

/-! ### The whole move -/

theorem bodyWords_fields (g : Geometry) : (bodyWords g).foldl (fun m k => m ||| (roleOf g k).fields) 0 = allFields g := by cases g <;> decide

theorem staticWords_take (s : State) (x : Frame) :
    (staticWords s.geometry).foldl (fun st k => st.take (roleOf s.geometry k) x.statics) s.safeStatics = x.staticsRead s.geometry := by
  unfold Frame.staticsRead
  cases s.geometry <;> rfl

theorem staticWords_lt {g : Geometry} {k : Nat} (h : k ∈ staticWords g) : k < frameSize g := by
  cases g <;> simp [staticWords, frameSize] at h ⊢ <;> omega

/-- What a move has read when it writes (R42). -/
def State.moveData (s : State) (old new : Nat) : MoveData :=
  { old := old, new := new, statics := (s.store.frame old).staticsRead s.geometry, stamp := (s.store.frame old).stamp, saved := (s.store.frame old).header.saved }

/-- The header of the frame that a record is moved into (R35). -/
def State.movedHeader (s : State) (p : Pocket) (old : Nat) : Header :=
  { state := .live, writeOpen := false, saved := (s.store.frame old).header.saved, pocket := p.val, gen := (s.ctl.mirror[p]).gen, stamp := s.sup.uptime }

theorem rewritten_moveSource (s : State) (p : Pocket) (c : Context) (new : Nat) :
    ({ Frame.rewritten s.geometry (Work.moveSource c (s.moveData c.frame new)) (s.store.frame new) with header := s.movedHeader p c.frame } : Frame) =
      Frame.rewritten s.geometry { s.store.frame c.frame with header := s.movedHeader p c.frame, fast := c.fast } (s.store.frame new) := by
  unfold Frame.rewritten Work.moveSource State.moveData Frame.staticsRead
  cases s.geometry <;> rfl

/-- The accesses of a move that is served (R42). -/
theorem runAll_move {s : State} {p : Pocket} {c : Context} {new : Nat} (hc : s.ctx p = some c) (hn : new < 48) (other : c.frame ≠ new)
    (clean : s.frameClean c.frame) (clean' : s.frameClean new) (map : s.store.flaw (mapWord p) = none) (hs : c.stampPending = false)
    (hd : c.dirty &&& ~~~ (allFields s.geometry) = 0) (hm : s.movingTo p c.frame new) :
    ∃ q, Work.runAll accessLimit (Work.begin s) = Work.begin ((s.mapTurned p c
      (Frame.rewritten s.geometry { s.store.frame c.frame with header := s.movedHeader p c.frame, fast := c.fast } (s.store.frame new))
      (s.moveData c.frame new) { Running.of (.move p c.frame false) [] with taken := allFields s.geometry, move := some (s.moveData c.frame new) } q).withFrame c.frame
        { s.store.frame c.frame with header := { (s.store.frame c.frame).header with state := .quarantined, writeOpen := false, saved := false } }) := by
  have todo : moveTodo s.geometry [] = (staticWords s.geometry).map Access.moveRead ++ .moveReadRest :: ((bodyWords s.geometry).map Access.moveWrite ++
      [.moveHeader, .moveMap, .moveOldHeader]) := by
    have all : (staticWords s.geometry).filter (fun k => !([] : List Nat).contains k) = staticWords s.geometry := List.filter_eq_self.2 fun _ _ => rfl
    rw [moveTodo, all]
    simp [bodyWords]
  have begun : Work.begin s = (Work.begin s).moving p c (s.store.frame new)
      { (⟨c.frame, new, s.safeStatics, none, false⟩ : MoveData) with statics := s.safeStatics } (moveTodo s.geometry []) 0 c.since := by
    unfold Work.moving
    dsimp only
    rw [show (Work.begin s).store.setFrame new (s.store.frame new) = s.store from Store.setFrame_frame _ _, upd_eq_self (by exact hc)]
    exact congrArg (fun x : Option Running => Work.begin (s.withCurrent x)) hm
  obtain ⟨m, len⟩ : ∃ m, accessLimit = (staticWords s.geometry).length + (((bodyWords s.geometry).length + (m + 1 + 1 + 1)) + 1) := by
    have := bodyWords_length s.geometry
    have short : (staticWords s.geometry).length ≤ 2 := by cases s.geometry <;> decide
    exact ⟨accessLimit - 4 - (bodyWords s.geometry).length - (staticWords s.geometry).length, by unfold accessLimit; omega⟩
  generalize hmv : s.moveData c.frame new = mv
  have old : mv.old = c.frame := by rw [← hmv]; rfl
  have target : mv.new = new := by rw [← hmv]; rfl
  have step (n : Nat) (x : Frame) (mv : MoveData) (a : Access) (rest : List Access) (taken since : FieldSet) :
      Work.runAll (n + 1) ((Work.begin s).moving p c x mv (a :: rest) taken since) = Work.runAll n ((Work.begin s).moving p c x mv (a :: rest) taken since).access :=
    Work.runAll_step n (r := { Running.of (.move p c.frame false) (a :: rest) with taken := taken, move := some mv }) rfl rfl
  have read : (⟨c.frame, new, (staticWords (Work.begin s).geometry).foldl (fun st k => st.take (roleOf (Work.begin s).geometry k)
      ((Work.begin s).store.frame c.frame).statics) s.safeStatics, ((Work.begin s).store.frame c.frame).stamp,
      ((Work.begin s).store.frame c.frame).header.saved⟩ : MoveData) = mv := by
    rw [← hmv, State.moveData, ← staticWords_take]
    rfl
  have target' : mv.new < 48 := by rw [target]; exact hn
  have cleanNew : s.frameClean mv.new := by rw [target]; exact clean'
  obtain ⟨left, apart, written⟩ := Work.runAll_moveWrites (w := Work.begin s) (p := p) (c := c) (mv := mv) target' cleanNew
    [.moveHeader, .moveMap, .moveOldHeader] (m + 1 + 1 + 1) (bodyWords s.geometry) (s.store.frame new) 0 c.since (BitVec.and_zero ..) fun _ => bodyWords_lt
  rw [show (Work.begin s).geometry = s.geometry from rfl, bodyWords_fields] at apart written
  have frame : ({ Frame.copied s.geometry (Work.moveSource c mv) (bodyWords s.geometry) (s.store.frame new) with
      header := { state := .live, writeOpen := false, saved := mv.saved, pocket := p.val, gen := ((Work.begin s).ctl.mirror[p]).gen,
                  stamp := (Work.begin s).sup.uptime } } : Frame) =
      Frame.rewritten s.geometry { s.store.frame c.frame with header := s.movedHeader p c.frame, fast := c.fast } (s.store.frame new) := by
    rw [← rewritten_moveSource, hmv, Frame.copied_body, ← hmv]
    rfl
  have run : Work.runAll accessLimit (Work.begin s) = Work.runAll (m + 1) ((Work.begin s).moving p c (Frame.rewritten s.geometry
      { s.store.frame c.frame with header := s.movedHeader p c.frame, fast := c.fast } (s.store.frame new)) mv [.moveMap, .moveOldHeader]
      (allFields s.geometry) left).access := by
    conv_lhs => rw [begun, len]
    rw [todo]
    refine (Work.runAll_moveReads (w := Work.begin s) (mv := ⟨c.frame, new, s.safeStatics, none, false⟩) hn other _ _ _ _ clean
      fun _ => staticWords_lt).trans ?_
    rw [step, Work.moving_readRest hn other clean hs]
    dsimp only
    rw [read, written, step, Work.moving_header target' cleanNew, step, frame]
  obtain ⟨q, turned⟩ := Work.moving_map (w := Work.begin s) (p := p) (c := c) (mv := mv) (x := Frame.rewritten s.geometry
    { s.store.frame c.frame with header := s.movedHeader p c.frame, fast := c.fast } (s.store.frame new)) target' map rfl hd apart [.moveOldHeader]
  refine ⟨q, ?_⟩
  rw [run, turned, Work.runAll_step m (r := { Running.of (.move p c.frame false) [.moveOldHeader] with taken := allFields s.geometry, move := some mv }) rfl rfl,
    Work.mapTurned_oldHeader (by rw [old, target]; exact other) target' (by rw [old]; exact clean) rfl rfl rfl rfl q, old]
  exact Work.runAll_done m rfl rfl

/-- A move ends whose accesses have led to `t`. -/
theorem exec_moveEnd {s t : State} {p : Pocket} {old new : Nat} {r : Running} {mv : MoveData} (hp : s.powered = true) (hm : s.movingTo p old new)
    (run : Work.runAll accessLimit (Work.begin s) = Work.begin t) (hr : t.ctl.current = some r) (hmv : r.move = some mv) :
    exec (.moveEnd noFailures) s = .next ((Work.begin t).endMove r mv).finish := by
  have e : exec (.moveEnd noFailures) s = execMoveEnd noFailures s := rfl
  have current : (Work.begin s).ctl.current = _ := hm
  have begun : (Work.begin s).inProgress (fun op => op.recordPocket.isSome) = s.ctl.current := by
    unfold State.inProgress
    rw [current, hm]
    rfl
  have still : Work.runPlain accessLimit (Work.begin s) = Work.begin s := Work.runPlain_move accessLimit hm rfl
  have done : (Work.begin t).ctl.current = some r := hr
  rw [e, execMoveEnd, powered_on hp, begun, hm, Work.meet_clean]
  dsimp only
  rw [still, begun, hm]
  dsimp only
  simp only [Option.isNone_some, Bool.false_eq_true, if_false, run, done, hmv]

theorem Store.setFrame_withMap (s : Store) (m : Vector MapEntry 32) (f : Nat) (x : Frame) :
    Store.setFrame { s with map := m } f x = { s.setFrame f x with map := m } := by
  unfold Store.setFrame
  split <;> rfl

/-- Settles O25. -/
theorem moveCopiesTheRecord : Obligations.MoveCopiesTheRecord := by
  unfold Obligations.MoveCopiesTheRecord
  intro p c new s hp ha hc hf hn other clean clean' map unfaulted hs hd hm x e head y t1 d
  obtain ⟨q, run⟩ := runAll_move hc hn other clean clean' map hs hd hm
  refine ⟨_, exec_moveEnd hp hm run rfl rfl, ?_⟩
  generalize hr : ({ Running.of (.move p c.frame false) [] with taken := allFields s.geometry, move := some (s.moveData c.frame new) } : Running) = r
  generalize ht : (s.mapTurned p c _ (s.moveData c.frame new) r q).withFrame c.frame _ = t
  have part : t.part = .active := by
    rw [← ht]
    exact ha
  have ctx : t.ctx p = some (c.moved (s.moveData c.frame new) s.sup.uptime) := by
    rw [← ht]
    refine (upd_self _ _ _).trans (congrArg (fun n => some (c.moved (s.moveData c.frame new) n)) ?_)
    cases s.geometry <;> rfl
  have ends : (Work.begin t).endMove r (s.moveData c.frame new) = (((Work.begin t).onCtx p fun c => { c with heatLevel := c.heatLevel.map fun _ => x.level }).rederive
      p).endOp r := by
    rw [← hr]
    rfl
  have near := (((State.Near.refl t).onCtx (w := Work.begin t) ctx fun c => { c with heatLevel := c.heatLevel.map fun _ => x.level }).rederive p)
  rw [ends]
  refine ((near.endOp part r).finish_ungranted ?_).trans ?_
  · rw [Work.endOp_active (near.part.trans part)]
    exact (Work.rederive_grant _ p).trans (Work.onCtx_grant _ _ _)
  · have moved : ({ c.moved (s.moveData c.frame new) s.sup.uptime with heatLevel := c.heatLevel.map fun _ => x.level } : Context) = d := by
      simp only [d, Context.moved, hs]
      rfl
    have same : t.withCtx p (some { c.moved (s.moveData c.frame new) s.sup.uptime with heatLevel := c.heatLevel.map fun _ => x.level }) = t.withCtx p (some d) :=
      congrArg (fun d => t.withCtx p (some d)) moved
    refine (congrArg (fun u : State => u.storeFreed.offLink) same).trans ?_
    rw [← ht]
    simp only [t1, State.mapTurned, State.withCtx, State.withFrame, State.withMap, State.markedPart, upd_upd, Store.setFrame_withMap, Store.setFrame_map]
    rfl

end Sys2Proof.Machine
end
section
/-! SUPPORT. The opening of a save (R141 to R144). -/

namespace Sys2Proof.Machine

/-! ### The link at a warning (R111) -/

section
variable (w : Work)

theorem Work.linkAtWarning_offLink : w.linkAtWarning.offLink = w.offLink :=
  (Work.broadcastSafe_offLink _).trans ((rfl : State.offLink _ = State.offLink (w.removeEntries fun e => e.state != .inFlight).toState).trans
    (Work.removeEntries_offLink _ _))

theorem Work.linkAtWarning_ctl : w.linkAtWarning.ctl = w.ctl :=
  (Work.broadcastSafe_ctl _).trans ((rfl : _ = (w.removeEntries fun e => e.state != .inFlight).ctl).trans (Work.removeEntries_ctl _ _))

end

/-! ### What a save under way has opened -/

/-- A save that began in `s` is under way in `t`, or has ended in DARK: settling has broken, requests, slots, reservations and wait lists are gone, and
the store, the port and the fast fields of the records stand as `s` has them. -/
structure State.SaveOpen (s t : State) : Prop where
  part : t.part = .save ∨ t.part = .dark
  pfw : t.sup.pfw = true
  settled : t.sup.settled = false
  told : t.events.stateChange = true
  requests : t.arb.requests = Vector.replicate 32 none
  slots : t.arb.slots = []
  heat : t.heat = HeatUnit.reset
  store : t.store = s.store
  port : t.port = s.port
  fast : ∀ p, (t.ctx p).map (·.fast) = (s.ctx p).map (·.fast)

section
variable {w : Work} {s : State}

theorem State.SaveOpen.quiet (h : s.SaveOpen w.toState) : w.part ≠ .active := by
  rcases h.part with e | e <;> simp [e]

theorem State.SaveOpen.onCtx (h : s.SaveOpen w.toState) (p : Pocket) {f : Context → Context} (hf : ∀ c, (f c).fast = c.fast) :
    s.SaveOpen (w.onCtx p f).toState := by
  have fast (q : Pocket) : ((w.onCtx p f).ctx q).map (·.fast) = (w.ctx q).map (·.fast) := by
    by_cases e : q = p
    · subst e
      rw [Work.ctx_onCtx_self, Option.map_map]
      exact congrArg (Option.map · (w.ctx q)) (funext hf)
    · rw [Work.ctx_onCtx_other w f e]
  obtain ⟨part, pfw, settled, told, requests, slots, heat, store, port, held⟩ := h
  have kept : ∀ {α : Type} (g : Work → α), (∀ x, g { w with ctxs := x } = g w) → g (w.onCtx p f) = g w := by
    intro α g hg
    unfold Work.onCtx
    split
    · exact hg _
    · rfl
  refine ⟨?_, ?_, ?_, ?_, ?_, ?_, ?_, ?_, ?_, fun q => (fast q).trans (held q)⟩
  · rw [kept (·.part) fun _ => rfl]; exact part
  · rw [kept (·.sup.pfw) fun _ => rfl]; exact pfw
  · rw [kept (·.sup.settled) fun _ => rfl]; exact settled
  · rw [kept (·.events.stateChange) fun _ => rfl]; exact told
  · rw [kept (·.arb.requests) fun _ => rfl]; exact requests
  · rw [kept (·.arb.slots) fun _ => rfl]; exact slots
  · rw [kept (·.heat) fun _ => rfl]; exact heat
  · rw [kept (·.store) fun _ => rfl]; exact store
  · rw [kept (·.port) fun _ => rfl]; exact port

/-- Convergence does not act outside ACTIVE. -/
theorem Work.rederive_heat_outside (out : w.part ≠ .active) (p : Pocket) : (w.rederive p).heat = w.heat := by
  have one (v : Work) (hv : v.part ≠ .active) (q : Pocket) : v.convergeOne q = v := if_neg (by simp [State.converges, hv])
  have waiting (v : Work) (hv : v.part ≠ .active) (m : Mask) (f : Pocket → Bool) : v.convergeWaiting m f = v := by
    unfold Work.convergeWaiting
    induction allPockets with
    | nil => rfl
    | cons q l ih =>
      rw [List.foldl_cons]
      split
      · rw [one v hv, ih]
      · exact ih
  have held : w.admitHeld.heat = w.heat := by
    unfold Work.admitHeld
    split
    · have probes : Work.admitProbes { w with room := none } = { w with room := none } := if_neg (by exact out)
      rw [waiting _ (by exact out), probes]
    · rfl
  unfold Work.rederive Work.converge
  dsimp only
  rw [one w out]
  split
  · exact held
  · exact (Work.endAuthority_heat _ p).trans held

theorem State.SaveOpen.rederive (h : s.SaveOpen w.toState) (p : Pocket) : s.SaveOpen (w.rederive p).toState := by
  have heat := Work.rederive_heat_outside h.quiet p
  have arb := w.rederive_arb p
  have view := w.rederive_offLink p
  have ctx (q : Pocket) : (w.rederive p).ctx q = w.ctx q := congrArg (·[q]) (State.ctxs_of_offLink view)
  obtain ⟨part, pfw, settled, told, requests, slots, heat', store, port, fast⟩ := h
  have sup : (w.rederive p).sup = w.sup := (congrArg State.sup view :)
  refine ⟨?_, ?_, ?_, ?_, ?_, ?_, heat.trans heat', (State.store_of_offLink view).trans store, (congrArg State.port view :).trans port, fun q => ?_⟩
  · have same : (w.rederive p).part = w.part := (congrArg State.part view :)
    rw [same]
    exact part
  · rw [sup]; exact pfw
  · rw [sup]; exact settled
  · have same : (w.rederive p).events = w.events := (congrArg State.events view :)
    rw [same]
    exact told
  · rw [arb]; exact requests
  · rw [arb]; exact slots
  · rw [ctx]; exact fast q

theorem State.SaveOpen.markPart (h : s.SaveOpen w.toState) : s.SaveOpen (w.markPart .store).toState := { h with }

theorem State.SaveOpen.pin (h : s.SaveOpen w.toState) (p : Pocket) : s.SaveOpen (w.pin p).toState := by
  have pinned := (h.onCtx p (f := fun c => { c with pinned := true }) fun _ => rfl).markPart
  unfold Work.pin
  split
  · exact h
  · split
    · exact h
    · dsimp only
      split
      · exact pinned
      · exact (pinned.onCtx p (by exact fun _ => rfl)).rederive p

theorem State.SaveOpen.endSave (h : s.SaveOpen w.toState) : s.SaveOpen w.endSave.toState := by
  unfold Work.endSave
  dsimp only
  rw [if_neg (by rw [h.settled]; exact Bool.false_ne_true)]
  exact { h with part := .inr rfl, told := rfl }

theorem State.SaveOpen.saveNext (n : Nat) : ∀ {w : Work}, s.SaveOpen w.toState → s.SaveOpen (Work.saveNext n w).toState := by
  induction n with
  | zero => exact id
  | succ n ih =>
    intro w h
    have charged : s.SaveOpen w.charge.toState := { h with }
    unfold Work.saveNext
    split
    · exact h.endSave
    · rename_i p c _
      have begun := charged.onCtx p (f := fun c => { c with checkpoint := .writing }) fun _ => rfl
      dsimp only
      split
      · split
        · rename_i v hb
          unfold Work.beginMove at hb
          split at hb
          · cases hb
          · cases hb
            exact { begun with }
        · exact ih ((begun.onCtx p (by exact fun _ => rfl)).pin p)
      · exact { begun with }

end

/-! ### The steps of a warning -/

/-- The part right after a warning, before the mark is decided: in SAVE, with nothing asked, granted or reserved, and the queue sorted. -/
def Work.saveSorted (w : Work) : Work :=
  let v := (w.enter .save).linkAtWarning
  Work.sortQueue { v with
    arb := { v.arb with requests := Vector.replicate 32 none, slots := [], sinceGrant := none }
    heat := HeatUnit.reset
    plan := Planner.reset
    sup := { v.sup with save := { charged := 0, written := 0, opAtWarning := v.ctl.current.isSome, uptime := v.sup.uptime } } }

theorem Work.beginSave_eq (w : Work) : w.beginSave =
    if w.saveSorted.ctl.current.isSome then w.saveSorted
    else if w.saveSorted.decideMark.ctl.queue.isEmpty then Work.saveNext 40 w.saveSorted.decideMark else w.saveSorted.decideMark := rfl

section
variable (w : Work)

theorem Work.sortQueue_stands : w.sortQueue.part = w.part ∧ w.sortQueue.sup = w.sup ∧ w.sortQueue.events = w.events ∧ w.sortQueue.arb = w.arb ∧
    w.sortQueue.heat = w.heat ∧ w.sortQueue.store = w.store ∧ w.sortQueue.backup = w.backup ∧
    w.sortQueue.ctl = { w.ctl with queue := w.ctl.queue.filter StoreOp.keptAtWarning } := by
  unfold Work.sortQueue
  dsimp only
  split <;> exact ⟨rfl, rfl, rfl, rfl, rfl, rfl, rfl, rfl⟩

theorem Work.sortQueue_fast (p : Pocket) : (w.sortQueue.ctx p).map (·.fast) = (w.ctx p).map (·.fast) := by
  have mapped : (w.ctxs.map fun c : Option Context => c.map fun c : Context =>
      { c with checkpoint := if c.checkpoint = CheckpointState.writing then CheckpointState.writing else CheckpointState.idle, tumbleLeft := none, tumbleGranted := false })[p].map (·.fast) =
      (w.ctx p).map (·.fast) := by
    simp [State.ctx, Function.comp_def]
  unfold Work.sortQueue
  dsimp only
  split <;> exact mapped

/-- R142, R183: a host request whose operation is dropped is answered. -/
theorem Work.sortQueue_answers (h : w.ctl.queue.any StoreOp.hostWaits = true) :
    w.sortQueue.port.response = some ⟨.powerFail, []⟩ ∧ w.sortQueue.port.state = .ready := by
  unfold Work.sortQueue
  dsimp only
  rw [if_pos h]
  exact ⟨rfl, rfl⟩

theorem Work.saveSorted_stands : w.saveSorted.backup = w.backup ∧
    w.saveSorted.ctl = { w.ctl with queue := w.ctl.queue.filter StoreOp.keptAtWarning } ∧
    w.saveSorted.sup.mark = w.sup.mark ∧ w.saveSorted.sup.save.uptime = w.sup.uptime ∧ w.saveSorted.sup.vbkGood = w.sup.vbkGood := by
  have view := (w.enter .save).linkAtWarning_offLink
  have ctl : (w.enter .save).linkAtWarning.ctl = w.ctl := (w.enter .save).linkAtWarning_ctl
  have backup : (w.enter .save).linkAtWarning.backup = w.backup := (congrArg State.backup view :)
  have sup : (w.enter .save).linkAtWarning.sup = w.sup := (congrArg State.sup view :)
  unfold Work.saveSorted
  generalize (w.enter .save).linkAtWarning = v at ctl backup sup ⊢
  obtain ⟨-, sup', -, -, -, -, backup', ctl'⟩ := Work.sortQueue_stands { v with
    arb := { v.arb with requests := Vector.replicate 32 none, slots := [], sinceGrant := none }
    heat := HeatUnit.reset
    plan := Planner.reset
    sup := { v.sup with save := { charged := 0, written := 0, opAtWarning := v.ctl.current.isSome, uptime := v.sup.uptime } } }
  dsimp only
  rw [backup', ctl', sup']
  exact ⟨backup, by dsimp only; rw [ctl], by dsimp only; rw [sup], by dsimp only; rw [sup], by dsimp only; rw [sup]⟩

theorem Work.saveSorted_fast (p : Pocket) : (w.saveSorted.ctx p).map (·.fast) = (w.ctx p).map (·.fast) :=
  (Work.sortQueue_fast _ p).trans (congrArg (Option.map (·.fast))
    (congrArg (fun x : Vector (Option Context) 32 => x[p]) (State.ctxs_of_offLink (w.enter .save).linkAtWarning_offLink)))

theorem Work.saveSorted_store : w.saveSorted.store = w.store := by
  obtain ⟨-, -, -, -, -, store, -⟩ := Work.sortQueue_stands { (w.enter .save).linkAtWarning with
    arb := { (w.enter .save).linkAtWarning.arb with requests := Vector.replicate 32 none, slots := [], sinceGrant := none }
    heat := HeatUnit.reset
    plan := Planner.reset
    sup := { (w.enter .save).linkAtWarning.sup with
      save := { charged := 0, written := 0, opAtWarning := (w.enter .save).linkAtWarning.ctl.current.isSome
                uptime := (w.enter .save).linkAtWarning.sup.uptime } } }
  have link : (w.enter .save).linkAtWarning.store = w.store := (congrArg State.store (w.enter .save).linkAtWarning_offLink :)
  exact store.trans link

theorem Work.saveSorted_answers (h : w.ctl.queue.any StoreOp.hostWaits = true) :
    w.saveSorted.port.response = some ⟨.powerFail, []⟩ ∧ w.saveSorted.port.state = .ready :=
  Work.sortQueue_answers _ (by
    have ctl : (w.enter .save).linkAtWarning.ctl = w.ctl := (w.enter .save).linkAtWarning_ctl
    dsimp only
    rw [ctl]
    exact h)

theorem Work.saveSorted_part : w.saveSorted.part = .save :=
  (Work.sortQueue_stands _).1.trans (congrArg State.part (w.enter .save).linkAtWarning_offLink :)

theorem Work.saveSorted_open (hp : w.sup.pfw = true) (hs : w.sup.settled = false) : w.saveSorted.toState.SaveOpen w.saveSorted.toState := by
  have view := (w.enter .save).linkAtWarning_offLink
  have part : (w.enter .save).linkAtWarning.part = .save := (congrArg State.part view :)
  have sup : (w.enter .save).linkAtWarning.sup = w.sup := (congrArg State.sup view :)
  have told : (w.enter .save).linkAtWarning.events.stateChange = true := (congrArg (fun s : State => s.events.stateChange) view :)
  unfold Work.saveSorted
  generalize (w.enter .save).linkAtWarning = v at part sup told ⊢
  obtain ⟨part', sup', events', arb', heat', -, -, -⟩ := Work.sortQueue_stands { v with
    arb := { v.arb with requests := Vector.replicate 32 none, slots := [], sinceGrant := none }
    heat := HeatUnit.reset
    plan := Planner.reset
    sup := { v.sup with save := { charged := 0, written := 0, opAtWarning := v.ctl.current.isSome, uptime := v.sup.uptime } } }
  dsimp only
  refine ⟨.inl (part'.trans part), ?_, ?_, ?_, ?_, ?_, heat', rfl, rfl, fun p => rfl⟩
  · rw [sup']; dsimp only; rw [sup]; exact hp
  · rw [sup']; dsimp only; rw [sup]; exact hs
  · rw [events']; exact told
  · rw [arb']
  · rw [arb']

end

theorem State.SaveOpen.decideMark {s : State} {w : Work} (h : s.SaveOpen w.toState) : s.SaveOpen w.decideMark.toState := by
  unfold Work.decideMark
  split
  · exact h
  · exact { h with }

/-- R143: a mark that is not valid is made new, and its write goes before what waits. -/
theorem Work.decideMark_of_invalid {w : Work} (h : w.sup.mark.valid = false) : w.decideMark =
    { w with
      sup := { w.sup with mark := ⟨true, (w.sup.mark.seq + 1) % 256, w.sup.save.uptime⟩ }
      backup := { w.backup with timer := 0, running := true, secondMs := 0, valid := w.backup.valid || w.sup.vbkGood }
      ctl := { w.ctl with queue := .markWrite false :: w.ctl.queue } } :=
  if_neg (by rw [h]; exact Bool.false_ne_true)

theorem Work.beginSave_open (w : Work) (hp : w.sup.pfw = true) (hs : w.sup.settled = false) : w.saveSorted.toState.SaveOpen w.beginSave.toState := by
  have start := w.saveSorted_open hp hs
  rw [Work.beginSave_eq]
  split
  · exact start
  · split
    · exact start.decideMark.saveNext 40
    · exact start.decideMark

/-- With an operation under way the warning stops there (R142). -/
theorem Work.beginSave_of_busy {w : Work} {r : Running} (h : w.ctl.current = some r) : w.beginSave = w.saveSorted := by
  rw [Work.beginSave_eq]
  refine if_pos ?_
  rw [w.saveSorted_stands.2.1]
  exact congrArg Option.isSome h

/-- With the store idle and no outage open, a new mark is made and waits to be written (R143). -/
theorem Work.beginSave_of_idle {w : Work} (h : w.ctl.current = none) (hm : w.sup.mark.valid = false) :
    w.beginSave = w.saveSorted.decideMark ∧ w.saveSorted.sup.mark.valid = false := by
  obtain ⟨-, ctl, mark, -, -⟩ := w.saveSorted_stands
  have invalid : w.saveSorted.sup.mark.valid = false := by rw [mark]; exact hm
  have idle : ¬ w.saveSorted.ctl.current.isSome = true := by rw [ctl]; simp [h]
  rw [Work.beginSave_eq, if_neg idle, if_neg]
  · exact ⟨rfl, invalid⟩
  · rw [Work.decideMark_of_invalid invalid]
    exact Bool.false_ne_true

/-! ### The obligation -/

theorem exec_warning {s : State} (hp : s.powered = true) : exec .powerFailWarning s = .next (Work.warn (Work.begin s)).finish :=
  powered_on hp _

theorem exec_break_pfw {s : State} (hp : s.powered = true) : exec (.supplyBreak .pfw) s = exec .powerFailWarning s :=
  (if_pos hp : execSupplyBreak .pfw s = powered s fun w => w.warn)

/-- The work of a warning that opens a save, before the save begins. -/
def Work.broken (w : Work) : Work := Work.breakSettling { w with sup := { w.sup with pfw := true } }

theorem exec_warning_opens {s : State} (hp : s.powered = true) (hf : s.sup.pfw = false) (ha : s.part = .active ∨ s.part = .plan) :
    exec .powerFailWarning s = .next (Work.begin s).broken.beginSave.toState := by
  have quiet := (Work.beginSave_open (Work.begin s).broken rfl rfl).quiet
  rw [exec_warning hp, Work.warn, if_neg (by simp [hf]), ← Work.finish_outside_active _ quiet]
  exact congrArg (fun v : Work => Host.Outcome.next v.finish) (if_pos ha)

/-- Settles O48: what is not in the save's own steps stands from the sorted state on. -/
theorem warningOpensTheSave : Obligations.WarningOpensTheSave := by
  unfold Obligations.WarningOpensTheSave
  intro s hp
  refine ⟨exec_break_pfw hp, fun hf => ?_, fun hf ha hn => ?_, fun hf ha => ⟨_, exec_warning_opens hp hf ha, ?_⟩⟩
  · rw [exec_warning hp, Work.warn, if_pos (by exact hf)]
    exact congrArg Host.Outcome.next (Work.finish_of_quiet _ rfl)
  · rw [exec_warning hp, Work.warn, if_neg (by simp [hf])]
    refine congrArg Host.Outcome.next ((congrArg Work.finish (if_neg ?_)).trans (Work.finish_outside_active _ ha))
    exact fun h => h.elim ha hn
  · have opened := Work.beginSave_open (Work.begin s).broken rfl rfl
    obtain ⟨part, pfw, settled, told, requests, slots, heat, store, port, fast⟩ := opened
    refine ⟨part, pfw, settled, told, requests, slots, heat, store.trans (Work.saveSorted_store _), fun p => (fast p).trans (Work.saveSorted_fast _ p),
      fun h => ?_, fun r hr => ?_, fun hc hm => ?_⟩
    · rw [port]
      exact Work.saveSorted_answers _ h
    · obtain ⟨-, ctl, -⟩ := Work.saveSorted_stands (Work.begin s).broken
      have same : (Work.begin s).broken.beginSave = (Work.begin s).broken.saveSorted := Work.beginSave_of_busy hr
      rw [same]
      have held : (Work.begin s).broken.saveSorted.ctl.current = some r := by rw [ctl]; exact hr
      have queue : (Work.begin s).broken.saveSorted.ctl.queue = s.ctl.queue.filter StoreOp.keptAtWarning := by rw [ctl]; rfl
      exact ⟨(Work.saveSorted_part _), held, queue⟩
    · obtain ⟨backup, ctl, mark, uptime, vbk⟩ := Work.saveSorted_stands (Work.begin s).broken
      obtain ⟨same, invalid⟩ := Work.beginSave_of_idle (w := (Work.begin s).broken) hc hm
      rw [same, Work.decideMark_of_invalid invalid]
      dsimp only
      rw [backup, ctl, mark, uptime, vbk]
      exact ⟨Work.saveSorted_part _, rfl, rfl, rfl⟩

end Sys2Proof.Machine
end
section
/-! SUPPORT. The closing mark write and the entry to ACTIVE (R107, R153, R172). -/

namespace Sys2Proof.Machine

/-! ### CLEAR_DOOR to every ONLINE pocket (R93, R107) -/

/-- CLEAR_DOOR is queued for the pocket, and latch seen set, as `b` and `l` say. -/
def State.doorCleared (s : State) (p : Pocket) (b l : Bool) : Prop := s.queued p .clearDoor = b ∧ (s.pocketLink p).latchSeen = l

/-- Convergence posts and purges no CLEAR_DOOR. -/
theorem State.doorCleared_of_posts {s t : State} {m h : Bool} {q p : Pocket} {b l : Bool} (a : State.Posts m h q s t) (hs : s.doorCleared p b l) :
    t.doorCleared p b l := by
  obtain ⟨queued, latch⟩ := hs
  have same : t.queued p .clearDoor = s.queued p .clearDoor := Bool.eq_iff_iff.2
    ⟨fun ht => State.queued_before_posts a ht fun _ => by simp, fun hs => State.queued_of_posts a hs fun _ => by simp⟩
  refine ⟨same.trans queued, ?_⟩
  by_cases e : p = q
  · subst e
    exact a.latch.trans latch
  · rw [a.others p e]
    exact latch

theorem State.doorCleared_kept (p : Pocket) (b l : Bool) : KeptAtEnd fun s => s.noneOwed ∧ s.doorCleared p b l :=
  KeptAtEnd.of_posts (fun _ _ _ hs posts _ _ => State.doorCleared_of_posts posts hs) (fun _ _ hs => hs) fun w q n _ ⟨queued, latch⟩ => by
    refine ⟨?_, (w.granted_pocketLink q n p (f := PocketLink.latchSeen) fun _ _ => rfl).trans latch⟩
    unfold State.queued
    rw [Work.granted_queue]
    exact queued

theorem Work.rederive_door {w : Work} {p : Pocket} {b l : Bool} (q : Pocket) (h : w.noneOwed ∧ w.doorCleared p b l) :
    (w.rederive q).noneOwed ∧ (w.rederive q).doorCleared p b l :=
  (State.doorCleared_kept p b l).rederive ((State.doorCleared_kept p b l).converge w q h) fun _ hv _ =>
    have posts := Work.endAuthority_posts hv.1 q false
    ⟨State.noneOwed_of_posts posts hv.1, State.doorCleared_of_posts posts hv.2⟩

/-- What one CLEAR_DOOR to `q` does to the link: at most one entry joins, of `q`; of the link records only latch seen of `q` changes. -/
structure State.OneDoor (q : Pocket) (s t : State) : Prop where
  state : ∀ p, (t.pocketLink p).state = (s.pocketLink p).state
  owed : ∀ p, (t.pocketLink p).safeOwed = (s.pocketLink p).safeOwed
  length : t.link.queue.length ≤ s.link.queue.length + 1
  count : ∀ p, p ≠ q → t.entryCount p = s.entryCount p
  door : ∀ p b l, p ≠ q → s.doorCleared p b l → t.doorCleared p b l

section
variable (w : Work) (q : Pocket)

theorem Work.join_count (k : CommandKind) {p : Pocket} (h : p ≠ q) : (w.join q k).entryCount p = w.entryCount p := by
  unfold Work.join
  split
  · rfl
  · simp [State.entryCount, Work.setQueue, Entry.isFor, Entry.fresh, h.symm]

theorem Work.join_queued (k k' : CommandKind) {p : Pocket} (h : p ≠ q) : (w.join q k).queued p k' = w.queued p k' := by
  unfold Work.join
  split
  · rfl
  · simp [State.queued, Work.setQueue, Entry.isFor, Entry.fresh, h.symm]

theorem Work.join_length (k : CommandKind) : (w.join q k).link.queue.length ≤ w.link.queue.length + 1 := by
  unfold Work.join
  split
  · exact Nat.le_succ _
  · simp [Work.setQueue]

theorem Work.join_pocketLink (k : CommandKind) (p : Pocket) : (w.join q k).pocketLink p = w.pocketLink p := by
  unfold Work.join
  split <;> rfl

theorem Work.postClearDoor_one : State.OneDoor q w.toState (w.postClearDoor q).toState := by
  unfold Work.postClearDoor
  split
  · have self (p : Pocket) {α : Type} {f : PocketLink → α} (hf : ∀ l : PocketLink, f { l with latchSeen := true } = f l) :
        f (((w.join q .clearDoor).onLink q fun l => { l with latchSeen := true }).pocketLink p) = f (w.pocketLink p) := by
      by_cases e : p = q
      · subst e
        rw [Work.pocketLink_onLink_self, hf, Work.join_pocketLink]
      · rw [Work.pocketLink_onLink_other _ _ e, Work.join_pocketLink]
    refine ⟨fun p => self p fun _ => rfl, fun p => self p fun _ => rfl, w.join_length q _, fun p e => w.join_count q _ e, fun p b l e hs => ⟨?_, ?_⟩⟩
    · exact (w.join_queued q .clearDoor .clearDoor e).trans hs.1
    · rw [Work.pocketLink_onLink_other _ _ e, Work.join_pocketLink]
      exact hs.2
  · exact ⟨fun _ => rfl, fun _ => rfl, Nat.le_succ _, fun _ _ => rfl, fun _ _ _ _ hs => hs⟩

theorem Work.postClearDoor_door (h : w.admits q .clearDoor = true) : (w.postClearDoor q).doorCleared q true true := by
  unfold Work.postClearDoor
  rw [if_pos h]
  refine ⟨w.queued_join q .clearDoor, ?_⟩
  rw [Work.pocketLink_onLink_self]

end

/-- CLEAR_DOOR to the ONLINE pockets of a list. -/
def Work.postClearDoors (w : Work) (l : List Pocket) : Work :=
  l.foldl (fun w p => if (w.pocketLink p).state = .online then w.postClearDoor p else w) w

theorem Work.postClearDoors_cons (w : Work) (q : Pocket) (l : List Pocket) :
    w.postClearDoors (q :: l) = (if (w.pocketLink q).state = .online then w.postClearDoor q else w).postClearDoors l := rfl

theorem Work.postClearDoors_owed : ∀ (l : List Pocket) {w : Work}, w.noneOwed → (w.postClearDoors l).noneOwed
  | [], _, h => h
  | q :: l, w, h => by
    rw [Work.postClearDoors_cons]
    refine Work.postClearDoors_owed l ?_
    split
    · exact fun p => ((w.postClearDoor_one q).owed p).trans (h p)
    · exact h

theorem Work.postClearDoors_offLink (w : Work) (l : List Pocket) : (w.postClearDoors l).offLink = w.offLink :=
  foldl_view State.offLink _ (fun w p => by
    split
    · exact w.postClearDoor_offLink p
    · rfl) l w

/-- A pocket that is not ONLINE, or not in the list, gets none. -/
theorem Work.postClearDoors_spare {p : Pocket} {b k : Bool} : ∀ (l : List Pocket) {w : Work}, (p ∈ l → (w.pocketLink p).state ≠ .online) →
    w.doorCleared p b k → (w.postClearDoors l).doorCleared p b k
  | [], _, _, h => h
  | q :: l, w, out, h => by
    rw [Work.postClearDoors_cons]
    split
    · next online =>
      have one := w.postClearDoor_one q
      have other : p ≠ q := fun e => out (e ▸ List.mem_cons_self ..) (e ▸ online)
      refine Work.postClearDoors_spare l (fun hp => ?_) (one.door p b k other h)
      rw [one.state]
      exact out (List.mem_cons_of_mem _ hp)
    · exact Work.postClearDoors_spare l (fun hp => out (List.mem_cons_of_mem _ hp)) h

/-- An ONLINE pocket of the list with room left under the limits gets one, whatever the others take (R93). -/
theorem Work.postClearDoors_posts {p : Pocket} : ∀ (l : List Pocket) {w : Work}, l.Nodup → p ∈ l → (w.pocketLink p).state = .online →
    w.entryCount p < 3 → w.link.queue.length + (l.filter fun q => (w.pocketLink q).state == .online).length ≤ 32 →
    (w.postClearDoors l).doorCleared p true true
  | [], _, _, hp, _, _, _ => absurd hp (List.not_mem_nil)
  | q :: l, w, hl, hp, online, count, room => by
    obtain ⟨out, hl⟩ := List.nodup_cons.1 hl
    rw [Work.postClearDoors_cons]
    by_cases e : p = q
    · subst e
      rw [if_pos online]
      refine Work.postClearDoors_spare l (fun hp => absurd hp out) (w.postClearDoor_door p ?_)
      have short : w.link.queue.length < 32 := by
        simp only [List.filter_cons, online, beq_self_eq_true, if_true, List.length_cons] at room
        omega
      simp [State.admits, Config.linkQueueMax, Config.perPocketMax, short, count]
    · have hp := (List.mem_cons.1 hp).resolve_left e
      by_cases turn : (w.pocketLink q).state = .online
      · have one := w.postClearDoor_one q
        rw [if_pos turn]
        refine Work.postClearDoors_posts l hl hp ((one.state p).trans online) ((one.count p e).trans_lt count) ?_
        have same : (l.filter fun r => ((w.postClearDoor q).pocketLink r).state == .online) = l.filter fun r => (w.pocketLink r).state == .online :=
          List.filter_congr fun r _ => by rw [one.state]
        rw [same]
        simp only [List.filter_cons, turn, beq_self_eq_true, if_true, List.length_cons] at room
        have grown := one.length
        omega
      · rw [if_neg turn]
        refine Work.postClearDoors_posts l hl hp online count ?_
        simpa [List.filter_cons, turn] using room

/-! ### The start requests of PENDING records (R172) -/

/-- A start that is wanted stays wanted when another request is made. -/
theorem Work.makeRequest_keeps {w : Work} {p : Pocket} {m : Nat} (q : Pocket) (n : Nat) (h : w.wantsStart p m) : (w.makeRequest q n).wantsStart p m := by
  unfold Work.makeRequest
  split
  · refine h.imp id fun held => ?_
    have kept : ((w.arb.slots.map fun x => if x.pocket = q then { x with carried := some (max n (x.carried.getD 0)) } else x).find?
        (·.pocket == p)).isSome = (w.arb.slots.find? (·.pocket == p)).isSome := by
      rw [List.find?_map, Option.isSome_map]
      refine congrArg (fun f => (List.find? f w.arb.slots).isSome) (funext fun x => ?_)
      dsimp only [Function.comp]
      split <;> rfl
    exact kept.trans held
  · next none =>
    have raised {old : Option Nat} (hq : w.request q = old) (rises : ∀ k, old = some k → k < n) : State.wantsStart (w.setRequest q (some n)).toState p m := by
      rcases h with ⟨k, hk, asked⟩ | held
      · by_cases e : p = q
        · subst e
          exact .inl ⟨n, Nat.le_trans hk (Nat.le_of_lt (rises k (hq.symm.trans asked))), upd_self _ _ _⟩
        · exact .inl ⟨k, hk, (upd_other _ _ e).trans asked⟩
      · exact .inr held
    split
    · next old asked =>
      split
      · next less =>
        exact raised asked fun k hk => Option.some.inj hk ▸ less
      · exact h
    · next asked => exact raised asked fun k hk => nomatch hk

/-- The requests that the entry to ACTIVE makes for the pockets of a list. -/
def Work.askPending (w : Work) (l : List Pocket) : Work :=
  l.foldl (fun w p =>
    match w.ctx p with
    | some c => if c.fast.status = .pending ∧ c.fast.hold = .none then w.makeRequest p (c.fast.level.getD 0) else w
    | none => w) w

theorem Work.askPending_offLink (w : Work) (l : List Pocket) : (w.askPending l).offLink = w.offLink :=
  foldl_view State.offLink _ (fun w p => by
    split
    · split
      · exact w.makeRequest_offLink p _
      · rfl
    · rfl) l w

theorem Work.makeRequest_link (w : Work) (p : Pocket) (n : Nat) : (w.makeRequest p n).link = w.link := by
  unfold Work.makeRequest
  repeat' split
  all_goals rfl

theorem Work.askPending_link (w : Work) (l : List Pocket) : (w.askPending l).link = w.link :=
  foldl_view State.link _ (fun w p => by
    split
    · split
      · exact w.makeRequest_link p _
      · rfl
    · rfl) l w

theorem Work.askPending_keeps {p : Pocket} {m : Nat} : ∀ (l : List Pocket) {w : Work}, w.wantsStart p m → (w.askPending l).wantsStart p m
  | [], _, h => h
  | q :: l, w, h => by
    refine Work.askPending_keeps l (w := (w.askPending [q])) ?_
    unfold Work.askPending
    rw [List.foldl_cons, List.foldl_nil]
    split
    · split
      · exact Work.makeRequest_keeps q _ h
      · exact h
    · exact h

theorem Work.askPending_wants {p : Pocket} {c : Context} (pending : c.fast.status = .pending) (hold : c.fast.hold = .none) :
    ∀ (l : List Pocket) {w : Work}, p ∈ l → w.ctx p = some c → (w.askPending l).wantsStart p (c.fast.level.getD 0)
  | [], _, hp, _ => absurd hp List.not_mem_nil
  | q :: l, w, hp, hc => by
    by_cases e : p = q
    · subst e
      refine Work.askPending_keeps l (w := (w.askPending [p])) ?_
      unfold Work.askPending
      rw [List.foldl_cons, List.foldl_nil, hc]
      dsimp only
      rw [if_pos ⟨pending, hold⟩]
      exact Work.makeRequest_wants _ _ _
    · refine Work.askPending_wants pending hold l (w := (w.askPending [q])) ((List.mem_cons.1 hp).resolve_left e) ?_
      have same : (w.askPending [q]).ctx p = w.ctx p := congrArg (fun v : Vector (Option Context) 32 => v[p]) (State.ctxs_of_offLink (w.askPending_offLink [q]))
      exact same.trans hc

/-! ### The entry to ACTIVE -/

/-- The part in ACTIVE with the planner done, before requests and convergence. -/
def Work.activated (w : Work) : Work :=
  { w.enter .active with plan := Planner.reset, link := { w.link with roundMs := 0 }, grant := true }

theorem Work.activated_offLink {v w : Work} (h : v.offLink = w.offLink) : v.activated.offLink = w.activated.offLink :=
  (congrArg (fun s : State => { s with
    part := .active
    events := { s.events with stateChange := true }
    plan := { Planner.reset with window := none } }) h :)

theorem Work.enterActive_eq (w : Work) : w.enterActive =
    allPockets.foldl (fun w p => w.rederive p) ((w.postClearDoors allPockets).activated.askPending allPockets) := by
  unfold Work.enterActive Work.postClearDoors Work.askPending Work.activated
  generalize allPockets = l
  rfl

section
variable (w : Work)

theorem Work.enterActive_offLink : w.enterActive.offLink = w.activated.offLink := by
  rw [Work.enterActive_eq]
  generalize allPockets = l
  rw [foldl_view State.offLink _ (fun w p => w.rederive_offLink p), Work.askPending_offLink]
  exact Work.activated_offLink (w.postClearDoors_offLink l)

theorem Work.enterActive_wants {p : Pocket} {c : Context} (hc : w.ctx p = some c) (pending : c.fast.status = .pending) (hold : c.fast.hold = .none) :
    w.enterActive.wantsStart p (c.fast.level.getD 0) := by
  have all : p ∈ allPockets := List.mem_finRange p
  rw [Work.enterActive_eq]
  generalize allPockets = l at all ⊢
  have doors : (w.postClearDoors l).ctxs = w.ctxs := State.ctxs_of_offLink (w.postClearDoors_offLink l)
  have asked : ((w.postClearDoors l).activated.askPending l).wantsStart p (c.fast.level.getD 0) :=
    Work.askPending_wants pending hold _ all ((congrArg (fun v : Vector (Option Context) 32 => v[p]) doors).trans hc)
  exact wantsStart_of_arb (foldl_arb _ (fun w p => w.rederive_arb p) _ _) asked

theorem Work.enterActive_door {w : Work} {p : Pocket} {b d : Bool} (free : w.noneOwed) (h : (w.postClearDoors allPockets).doorCleared p b d) :
    w.enterActive.noneOwed ∧ w.enterActive.doorCleared p b d := by
  rw [Work.enterActive_eq]
  generalize allPockets = l at h ⊢
  have link := (w.postClearDoors l).activated.askPending_link l
  refine foldl_keeps (P := fun s => s.noneOwed ∧ s.doorCleared p b d) (fun v q => Work.rederive_door q) _ ⟨fun q => ?_, ?_⟩
  · have same := congrArg (fun x : LinkCtl => (x.pockets[q]).safeOwed) link
    exact same.trans (Work.postClearDoors_owed l free q)
  · unfold State.doorCleared State.queued State.pocketLink at h ⊢
    rw [link]
    exact h

end

/-! ### The obligation -/

theorem Store.setFlaw_withMark (s : Store) (n : Nat) (v : Option Flaw) (m : OutageMark) :
    { s with mark := m }.setFlaw n v = { s.setFlaw n v with mark := m } := by
  unfold Store.setFlaw
  split <;> rfl

/-- The work of a mark write as its end acts. -/
def State.markWritten (s : State) (closing : Bool) (m : OutageMark) : Work :=
  { s.running noFailures (.markWrite closing) with
    sup := { s.sup with mark := m }, store := { s.store with mark := m }.setFlaw markWord none }

theorem exec_markWriteEnd {s : State} {closing : Bool} (hp : s.powered = true) (hs : s.serving (.markWrite closing) [.writeMark]) :
    exec .markWriteEnd s =
      let w := s.markWritten closing (if closing then { s.sup.mark with valid := false } else s.sup.mark)
      let v := (if closing then w.completePlan else w).endOp (Running.of (.markWrite closing) [])
      .next (if closing ∧ v.part = .plan then v.enterActive else v).finish := by
  have e : exec .markWriteEnd s = execMarkWriteEnd s := rfl
  rw [e, execMarkWriteEnd, powered_endWhere_one hp hs rfl rfl (v := s.markWritten closing (if closing then { s.sup.mark with valid := false } else s.sup.mark))
    rfl rfl rfl rfl]
  rfl

theorem Work.endOp_plan {w : Work} (h : w.part = .plan) (r : Running) :
    w.endOp r = Work.planOn { w with ctl := { w.ctl with current := none } } := by
  unfold Work.endOp
  dsimp only
  split
  · next save => exact absurd (h.symm.trans save) PartState.noConfusion
  · rfl
  · next _ plan => exact absurd h plan

/-- At its close PLAN has nothing more to take up. -/
theorem Work.planOn_close {w : Work} (h : w.plan.step = .close) : w.planOn = w := by
  have taken : w.planRecords = w := if_neg (by simp [h])
  unfold Work.planOn
  rw [taken]
  exact if_neg (by simp [h])

/-- The work of the closing mark write as PLAN ends. -/
def State.planClosed (s : State) : Work :=
  { Work.begin s with
    sup := { s.sup with mark := { s.sup.mark with valid := false } }
    store := { s.store with mark := { s.sup.mark with valid := false } }.setFlaw markWord none
    backup := { s.backup with timer := 0, running := false, secondMs := 0, valid := s.backup.valid || s.sup.vbkGood }
    ctl := { s.ctl with current := none } }

theorem exec_markWriteEnd_close {s : State} (hp : s.powered = true) (ha : s.part = .plan) (hc : s.plan.step = .close)
    (hs : s.serving (.markWrite true) [.writeMark]) : exec .markWriteEnd s = .next s.planClosed.enterActive.finish := by
  have ended : (s.markWritten true { s.sup.mark with valid := false }).completePlan.endOp (Running.of (.markWrite true) []) = s.planClosed := by
    have plan : s.planClosed.planOn = s.planClosed := Work.planOn_close hc
    exact (Work.endOp_plan (by exact ha) _).trans plan
  rw [exec_markWriteEnd hp hs]
  dsimp only [if_true]
  simp only [if_true, ended]
  rw [if_pos ⟨trivial, ha⟩]

/-- What the entry to ACTIVE leaves beside the link and the arbiter. -/
theorem State.stands_of_offGrant {s t : State} (view : t.offGrant = s.offGrant) :
    t.port = s.port ∧ (∀ p, (t.ctx p).map (·.fast) = (s.ctx p).map (·.fast)) ∧
    t.part = s.part ∧ t.events = s.events ∧ t.ctl.current = s.ctl.current ∧ t.sup = s.sup ∧ t.store = s.store ∧ t.backup = s.backup :=
  ⟨(congrArg State.port view :), fun p => State.fast_of_offGrant (p := p) view, (congrArg State.part view :), (congrArg State.events view :),
    (congrArg (fun t : State => t.ctl.current) view :), (congrArg State.sup view :), (congrArg State.store view :), (congrArg State.backup view :)⟩

theorem State.planClosed_activated (s : State) :
    s.planClosed.activated.port = s.port ∧ s.planClosed.activated.ctxs = s.ctxs ∧ s.planClosed.activated.part = .active ∧
    s.planClosed.activated.events.stateChange = true ∧ s.planClosed.activated.ctl.current = none ∧
    s.planClosed.activated.sup.mark = { s.sup.mark with valid := false } ∧
    s.planClosed.activated.store = { s.store.setFlaw markWord none with mark := { s.sup.mark with valid := false } } ∧
    s.planClosed.activated.backup = { s.backup with timer := 0, running := false, secondMs := 0, valid := s.backup.valid || s.sup.vbkGood } := by
  rw [← Store.setFlaw_withMark]
  exact ⟨rfl, rfl, rfl, rfl, rfl, rfl, rfl, rfl⟩

/-- Settles O31. -/
theorem markWritesOpenAndCloseAnOutage : Obligations.MarkWritesOpenAndCloseAnOutage := by
  unfold Obligations.MarkWritesOpenAndCloseAnOutage
  intro s hp
  refine ⟨fun ha hc hs => ⟨_, exec_markWriteEnd_close hp ha hc hs, ?_⟩, fun ha hs => ?_⟩
  · have view : s.planClosed.enterActive.finish.offGrant = s.planClosed.activated.offGrant :=
      (Work.finish_offGrant _).trans (State.offGrant_of_offLink s.planClosed.enterActive_offLink)
    obtain ⟨port, fast, part, events, current, sup, store, backup⟩ := State.stands_of_offGrant view
    obtain ⟨port', ctxs, part', told, current', mark, written, backup'⟩ := s.planClosed_activated
    refine ⟨port.trans port', fun p => (fast p).trans ?_, part.trans part', (congrArg (·.stateChange) events).trans told, current.trans current',
      (congrArg (·.mark) sup).trans mark, store.trans written, backup.trans backup', fun p c hc pending hold => ?_, fun free p => ?_⟩
    · unfold State.ctx
      rw [ctxs]
    · exact Work.finish_wants (Work.enterActive_wants _ hc pending hold)
    · have none : s.planClosed.noneOwed := free
      have kept {b d : Bool} (h : (s.planClosed.postClearDoors allPockets).doorCleared p b d) : s.planClosed.enterActive.finish.doorCleared p b d :=
        ((State.doorCleared_kept p b d).finish (Work.enterActive_door none h)).2
      refine ⟨fun online count room => kept ?_, fun away => kept ?_⟩
      · exact Work.postClearDoors_posts _ (List.nodup_finRange 32) (List.mem_finRange p) online count room
      · exact Work.postClearDoors_spare _ (fun _ => away) ⟨rfl, rfl⟩
  · refine ⟨_, exec_markWriteEnd hp hs, ?_⟩
    have store : (s.markWritten false s.sup.mark).store = { s.store.setFlaw markWord none with mark := s.sup.mark } :=
      Store.setFlaw_withMark s.store markWord none _
    simpa using store

end Sys2Proof.Machine
end
section
/-! SUPPORT. The patrol (R47, R48). -/

namespace Sys2Proof.Machine

/-! ### What reading and writing words leaves of the work -/

/-- The work without the store array, the event set and the volatile store state. -/
def Work.offArray (w : Work) : Work := { w with store := Store.unformatted, events := EventSet.empty, ctl := StoreCtl.reset }

theorem Work.quiet_of_offArray {v w : Work} (h : v.offArray = w.offArray) : v.quiet = w.quiet := (congrArg Work.quiet h :)

/-- The units beside the store stand. -/
theorem Work.units_of_offArray {v w : Work} (h : v.offArray = w.offArray) : v.part = w.part ∧ v.ctxs = w.ctxs ∧ v.link = w.link ∧ v.arb = w.arb ∧
    v.heat = w.heat ∧ v.port = w.port ∧ v.sup = w.sup :=
  ⟨(congrArg (fun w : Work => w.part) h :), (congrArg (fun w : Work => w.ctxs) h :), (congrArg (fun w : Work => w.link) h :),
    (congrArg (fun w : Work => w.arb) h :), (congrArg (fun w : Work => w.heat) h :), (congrArg (fun w : Work => w.port) h :),
    (congrArg (fun w : Work => w.sup) h :)⟩

section
variable (w : Work)

theorem Work.offer_offArray (n : Nat) (x : Flaw) (src : LatchSource) : (w.offer n x src).offArray = w.offArray := by
  unfold Work.offer
  dsimp only
  split <;> rfl

theorem Work.readWord_offArray (n : Nat) (src : LatchSource) (b : Bool) : (w.readWord n src b).offArray = w.offArray := by
  have counted : (w.countCorrectable.offer n .correctable src).offArray = w.offArray := Work.offer_offArray _ _ _ _
  unfold Work.readWord
  split
  · rfl
  · dsimp only
    split
    · exact counted
    · exact counted
  · exact w.offer_offArray _ _ _

theorem Work.writeMap_offArray (p : Pocket) (e : MapEntry) : (w.writeMap p e).offArray = w.offArray := by
  unfold Work.writeMap
  dsimp only
  split <;> exact Work.readWord_offArray _ _ _ _

theorem Work.writeFormat_offArray (f : FormatWord) : (w.writeFormat f).offArray = w.offArray := rfl

theorem Work.writeMark_offArray (m : OutageMark) : (w.writeMark m).offArray = w.offArray := rfl

theorem Work.writeSettingsWord_offArray (x : Settings) (k : Nat) : (w.writeSettingsWord x k).offArray = w.offArray := rfl

theorem Work.failAfterWrite_offArray (n : Nat) : (w.failAfterWrite n).offArray = w.offArray := rfl

theorem Work.markPart_offArray (k : PartEvent) : (w.markPart k).offArray = w.offArray := rfl

theorem Work.patrolHeader_offArray (n : Nat) : (w.patrolHeader n).offArray = w.offArray := by
  unfold Work.patrolHeader
  dsimp only
  repeat' split
  all_goals simp only [Work.markPart_offArray, Work.readWord_offArray, Work.failAfterWrite_offArray, Work.writeFormat_offArray,
    Work.writeMark_offArray, Work.writeSettingsWord_offArray]

theorem Work.patrolMap_offArray (p : Pocket) : (w.patrolMap p).offArray = w.offArray := by
  unfold Work.patrolMap
  dsimp only
  split
  · exact w.readWord_offArray _ _ _
  · exact (Work.writeMap_offArray _ _ _).trans (w.readWord_offArray _ _ _)

theorem Work.patrolFrame_offArray (n f : Nat) : (w.patrolFrame n f).offArray = w.offArray := by
  unfold Work.patrolFrame
  dsimp only
  split
  · split <;> exact w.readWord_offArray _ _ _
  · split <;> exact w.readWord_offArray _ _ _

/-- The patrol reads word `n` (R47, R48). -/
def Work.patrolAt (n : Nat) : Work :=
  if n < 14 then w.patrolHeader n
  else if h : n - 14 < 32 then w.patrolMap ⟨n - 14, h⟩
  else w.patrolFrame n ((n - 46) / frameSize w.geometry)

theorem Work.patrolAt_offArray (n : Nat) : (w.patrolAt n).offArray = w.offArray := by
  unfold Work.patrolAt
  split
  · exact w.patrolHeader_offArray n
  · split
    · exact w.patrolMap_offArray _
    · exact w.patrolFrame_offArray _ _

/-- The patrol moves its cursor past word `n`. -/
def Work.patrolled (n : Nat) : Work := { w with ctl := { w.ctl with cursor := (n + 1) % Config.storeWords, patrolOwed := false } }

theorem Work.patrol_offArray : w.patrol.offArray = w.offArray := by
  unfold Work.patrol
  split
  · rfl
  · exact Work.patrolAt_offArray (w.patrolled (w.patrolWord Config.storeWords w.ctl.cursor)) _

end

/-! ### What an offered word leaves -/

/-- An offered word is latched, the worse of two kept (R49). -/
theorem Work.offer_latches (w : Work) (n : Nat) (x : Flaw) (src : LatchSource) : ∃ l, (w.offer n x src).ctl = { w.ctl with latch := l } ∧
    (w.offer n x src).store = w.store ∧ l.state ≠ .empty ∧ (x = .uncorrectable → l.state = .uncorrectable) := by
  unfold Work.offer
  dsimp only
  split
  · exact ⟨_, rfl, rfl, by simp, by simp⟩
  · exact ⟨_, rfl, rfl, by simp, by simp⟩
  · exact ⟨_, rfl, rfl, by simp, by simp⟩
  · rename_i y _ _ first second third
    refine ⟨w.ctl.latch, rfl, rfl, fun empty => ?_, fun bad => ?_⟩
    · cases y
      · exact first empty rfl
      · exact second empty rfl
    · cases h : w.ctl.latch.state
      · exact absurd bad (second h)
      · exact absurd bad (third h)
      · rfl

/-- A correctable word that may be written back is counted, latched and clean (R33). -/
theorem Work.readWord_counts {w : Work} {n : Nat} (h : w.store.flaw n = some .correctable) (src : LatchSource) :
    ∃ l, (w.readWord n src true).ctl = { w.ctl with correctable := min 65535 (w.ctl.correctable + 1), latch := l } ∧
      (w.readWord n src true).store = w.store.setFlaw n none ∧ l.state ≠ .empty := by
  obtain ⟨l, ctl, store, latched, -⟩ := w.countCorrectable.offer_latches n .correctable src
  have read : w.readWord n src true = (w.countCorrectable.offer n .correctable src).wrote n := by simp [Work.readWord, h]
  rw [read]
  exact ⟨l, ctl, congrArg (fun x : Store => x.setFlaw n none) store, latched⟩

/-! ### The word that the patrol reads (R47, R48) -/

theorem State.patrolWord_here {s : State} {n : Nat} (h : s.inQuarantine n = false) (k : Nat) : s.patrolWord k n = n := by
  cases k with
  | zero => rfl
  | succ k => exact if_neg (by simp [h])

theorem exec_patrolRead {s : State} (hp : s.powered = true) (ha : s.part = .active) (found : Findings) :
    exec (.patrolRead found) s = .next ((Work.begin s).meet found).patrol.toState := by
  have e : exec (.patrolRead found) s = execPatrolRead found s := rfl
  rw [e, execPatrolRead, powered_on hp, if_pos (.inl ha), Work.finish_of_quiet _ ((Work.quiet_of_offArray (Work.patrol_offArray _)).trans rfl)]

theorem exec_patrolRead_idle {s : State} {n : Nat} (hp : s.powered = true) (ha : s.part = .active) (hc : s.ctl.cursor = n)
    (hq : s.inQuarantine n = false) (idle : s.ctl.current = none) (empty : s.ctl.queue = []) :
    exec (.patrolRead noFailures) s = .next (((Work.begin s).patrolled n).patrolAt n).toState := by
  have word : s.patrolWord Config.storeWords s.ctl.cursor = n := by rw [hc]; exact State.patrolWord_here hq _
  have read : (Work.begin s).patrol = ((Work.begin s).patrolled n).patrolAt n := by
    unfold Work.patrol
    rw [if_neg (by simp [idle, empty])]
    dsimp only
    rw [show (Work.begin s).patrolWord Config.storeWords (Work.begin s).ctl.cursor = n from word]
    rfl
  rw [exec_patrolRead hp ha]
  exact congrArg (fun w : Work => Host.Outcome.next w.toState) read

section
variable {w : Work} {n : Nat}

theorem State.ctx_of_holder {s : State} {f : Nat} {p : Pocket} {c : Context} (h : s.holderOf f = some (p, c)) : s.ctx p = some c := by
  obtain ⟨q, -, found⟩ := List.exists_of_findSome?_eq_some h
  cases hc : s.ctx q with
  | none => simp [hc] at found
  | some d =>
    rw [hc] at found
    dsimp only at found
    split at found
    · obtain ⟨rfl, rfl⟩ := Prod.mk.inj (Option.some.inj found)
      exact hc
    · exact nomatch found

/-- A word that can be read is repaired at most. -/
theorem Work.patrolAt_readable (ok : w.readable n = true) : ∃ b, (w.nonePinned → b = true) ∧ w.patrolAt n = w.readWord n .patrol b := by
  unfold Work.patrolAt
  split
  · exact ⟨true, fun _ => rfl, by simp [Work.patrolHeader, ok]⟩
  · split
    · next map =>
      have word : mapWord ⟨n - 14, map⟩ = n := by unfold mapWord; dsimp only; omega
      exact ⟨true, fun _ => rfl, by simp only [Work.patrolMap, word, ok, if_true]⟩
    · unfold Work.patrolFrame
      dsimp only
      split
      · next p c holder =>
        refine ⟨!c.pinned, fun free => ?_, if_pos (.inl ok)⟩
        rw [free p c (State.ctx_of_holder holder)]
        rfl
      · exact ⟨true, fun _ => rfl, if_pos (.inl ok)⟩

/-- The words of frame `f` are read as such. -/
theorem Work.patrolAt_frame {f k : Nat} (hn : n = frameWord w.geometry f k) (hk : k < frameSize w.geometry) : w.patrolAt n = w.patrolFrame n f := by
  have pos : 0 < frameSize w.geometry := by omega
  have frame : (n - 46) / frameSize w.geometry = f := by
    rw [hn, frameWord, Nat.add_assoc, Nat.add_sub_cancel_left, Nat.mul_add_div pos, Nat.div_eq_of_lt hk, Nat.add_zero]
  unfold Work.patrolAt
  rw [if_neg (by unfold frameWord at hn; omega), dif_neg (by unfold frameWord at hn; omega), frame]

theorem Work.patrolAt_map (p : Pocket) : w.patrolAt (mapWord p) = w.patrolMap p := by
  have low : ¬ mapWord p < 14 := by unfold mapWord; omega
  have high : mapWord p - 14 < 32 := by unfold mapWord; omega
  unfold Work.patrolAt
  rw [if_neg low, dif_pos high]
  exact congrArg w.patrolMap (Fin.ext (by unfold mapWord; dsimp only; omega))

/-- An uncorrectable word of a live record has the record moved (R48). -/
theorem Work.patrolFrame_held {f : Nat} {p : Pocket} {c : Context} (bad : w.store.flaw n = some .uncorrectable) (ha : w.part = .active)
    (holder : w.holderOf f = some (p, c)) (hp : c.pinned = false) (empty : w.ctl.queue = []) :
    (w.patrolFrame n f).ctl.queue = [.move p f false] ∧ (w.patrolFrame n f).ctl.latch.state = .uncorrectable ∧ (w.patrolFrame n f).store = w.store := by
  obtain ⟨l, ctl, store, -, latched⟩ := w.offer_latches n .uncorrectable .patrol
  have part : (w.offer n .uncorrectable .patrol).part = w.part := (Work.units_of_offArray (w.offer_offArray _ _ _)).1
  have moved : w.patrolFrame n f = (w.offer n .uncorrectable .patrol).enqueue (.move p f false) := by
    unfold Work.patrolFrame
    dsimp only
    rw [holder]
    dsimp only
    rw [Work.readWord_uncorrectable bad, if_neg]
    simp [State.readable, Store.readable, bad, hp, part, ha, ctl, empty]
  rw [moved]
  refine ⟨?_, ?_, store⟩
  · show (w.offer n .uncorrectable .patrol).ctl.queue ++ _ = _
    rw [ctl, empty]
    rfl
  · show (w.offer n .uncorrectable .patrol).ctl.latch.state = _
    rw [ctl]
    exact latched rfl

/-- An uncorrectable word of a free frame has the frame withdrawn (R48). -/
theorem Work.patrolFrame_free {f : Nat} (bad : w.store.flaw n = some .uncorrectable) (holder : w.holderOf f = none) (free : f ∈ w.ctl.free)
    (hf : f < 48) : f ∉ (w.patrolFrame n f).ctl.free ∧ (w.patrolFrame n f).quarantined f = true ∧
      ((w.patrolFrame n f).store.frame f).header.state = .quarantined ∧ (w.patrolFrame n f).events.store = true := by
  obtain ⟨l, ctl, store, -, -⟩ := w.offer_latches n .uncorrectable .patrol
  have withdrawn : w.patrolFrame n f = Work.withdraw { w.offer n .uncorrectable .patrol with
      ctl := { (w.offer n .uncorrectable .patrol).ctl with free := (w.offer n .uncorrectable .patrol).ctl.free.filter (· != f) } } f := by
    unfold Work.patrolFrame
    dsimp only
    rw [holder]
    dsimp only
    rw [Work.readWord_uncorrectable bad, if_neg]
    simp [State.readable, Store.readable, bad, ctl, free]
  rw [withdrawn]
  generalize w.offer n .uncorrectable .patrol = v
  refine ⟨by simp [Work.withdraw, Work.quarantineFrame, Work.writeHeader, Work.wrote], ?_, ?_, rfl⟩
  · simp [State.quarantined, Work.withdraw, Work.quarantineFrame, hf]
  · refine (congrArg (fun x : Frame => x.header.state) (?_ : _ = { v.store.frame f with header := v.withdrawnHeader f .quarantined })).trans ?_
    · exact (Store.setFlaw_frame _ _ _ _).trans (Store.frame_setFrame_self hf _)
    · unfold State.withdrawnHeader
      dsimp only
      split <;> rfl

/-- An uncorrectable map word is rewritten from the mirror (R37, R48). -/
theorem Work.patrolMap_rewrites {p : Pocket} (bad : w.store.flaw (mapWord p) = some .uncorrectable) (hw : w.storeWf) (hp : w.post = []) :
    (w.patrolMap p).store.map[p] = w.ctl.mirror[p] ∧ (w.patrolMap p).store.flaw (mapWord p) = none ∧
    (w.patrolMap p).ctl.latch.state = .uncorrectable ∧ (w.patrolMap p).ctl.mapFault = w.ctl.mapFault := by
  obtain ⟨l, ctl, store, -, latched⟩ := w.offer_latches (mapWord p) .uncorrectable .patrol
  have post : (w.offer (mapWord p) .uncorrectable .patrol).post = [] := (congrArg (fun w : Work => w.post) (w.offer_offArray _ _ _) :).trans hp
  have wf : (w.offer (mapWord p) .uncorrectable .patrol).storeWf := by unfold State.storeWf; rw [store]; exact hw
  have put : w.patrolMap p = (w.offer (mapWord p) .uncorrectable .patrol).mapPut p w.ctl.mirror[p] := by
    unfold Work.patrolMap
    dsimp only
    rw [Work.readWord_uncorrectable bad, if_neg (by simp [State.readable, Store.readable, bad]), ctl, Work.writeMap_good wf post]
  rw [put]
  generalize w.offer (mapWord p) .uncorrectable .patrol = v at ctl wf ⊢
  refine ⟨?_, Work.mapPut_flaw wf p _, (congrArg (·.latch.state) ctl).trans (latched rfl), congrArg (·.mapFault) ctl⟩
  have map : (v.mapPut p w.ctl.mirror[p]).store.map = upd v.store.map p w.ctl.mirror[p] := Store.setFlaw_map _ _ _
  rw [map]
  exact upd_self _ _ _

/-- An uncorrectable format word is rewritten from its copy (R34, R48). -/
theorem Work.patrolHeader_format (bad : w.store.flaw 0 = some .uncorrectable) (hw : w.storeWf) (hp : w.post = []) :
    (w.patrolHeader 0).store.format = w.ctl.format ∧ (w.patrolHeader 0).store.flaw 0 = none := by
  obtain ⟨l, ctl, store, -, -⟩ := w.offer_latches 0 .uncorrectable .patrol
  have post : (w.offer 0 .uncorrectable .patrol).post = [] := (congrArg (fun w : Work => w.post) (w.offer_offArray _ _ _) :).trans hp
  have wf : (w.offer 0 .uncorrectable .patrol).store.wf = true := by rw [store]; exact hw
  have put : w.patrolHeader 0 = (w.offer 0 .uncorrectable .patrol).writeFormat w.ctl.format ∧
      ((w.offer 0 .uncorrectable .patrol).writeFormat w.ctl.format).store.flaw 0 = none := by
    have clean : ((w.offer 0 .uncorrectable .patrol).writeFormat w.ctl.format).store.flaw 0 = none :=
      Store.flaw_setFlaw_self (s := { (w.offer 0 .uncorrectable .patrol).store with format := w.ctl.format }) (Store.wf_of_flaws rfl wf) (by decide) none
    refine ⟨?_, clean⟩
    unfold Work.patrolHeader
    dsimp only
    rw [Work.readWord_uncorrectable bad, if_neg (by simp [State.readable, Store.readable, bad]), if_pos rfl, ctl,
      Work.failAfterWrite_clean (by exact post), if_pos (State.readable_clean clean), Work.readWord_clean clean]
  rw [put.1]
  exact ⟨Store.setFlaw_format _ _ _, put.2⟩

end


/-- Settles O34. -/
theorem patrolActsOnWhatItReads : Obligations.PatrolActsOnWhatItReads := by
  unfold Obligations.PatrolActsOnWhatItReads
  intro n s hp ha hc hn hq
  have idle (w : Work) (hw : w = (Work.begin s).patrolled n) (current : s.ctl.current = none) (empty : s.ctl.queue = []) :
      exec (.patrolRead noFailures) s = .next (w.patrolAt n).toState := hw ▸ exec_patrolRead_idle hp ha hc hq current empty
  refine ⟨fun found => ⟨_, exec_patrolRead hp ha found, ?_⟩, fun busy => ?_, fun current empty => ?_⟩
  · obtain ⟨part, ctxs, link, arb, heat, port, sup⟩ := Work.units_of_offArray (Work.patrol_offArray ((Work.begin s).meet found))
    exact ⟨part.trans ha, ctxs, link, arb, heat, port, sup⟩
  · rw [exec_patrolRead hp ha]
    have owed : (Work.begin s).patrol = { Work.begin s with ctl := { s.ctl with patrolOwed := true } } := by
      refine if_pos ?_
      rcases busy with h | h
      · simp [Option.isSome_iff_ne_none.2 h]
      · simp [h]
    exact congrArg (fun w : Work => Host.Outcome.next w.toState) owed
  · have read := idle _ rfl current empty
    generalize hw : (Work.begin s).patrolled n = w at read
    have store : w.store = s.store := by rw [← hw]; rfl
    have post : w.post = [] := by rw [← hw]; rfl
    have ctl : w.ctl = { s.ctl with cursor := (n + 1) % 430, patrolOwed := false } := by rw [← hw]; rfl
    have ctxs : w.ctxs = s.ctxs := by rw [← hw]; rfl
    have part : w.part = .active := by rw [← hw]; exact ha
    refine ⟨fun clean => ?_, fun flawed pinned wf => ⟨_, read, ?_⟩, fun p c f k word hk bad => ⟨fun holder free => ⟨_, read, ?_⟩, fun holder free hf => ⟨_, read, ?_⟩⟩,
      fun p word bad wf => ⟨_, read, ?_⟩, fun zero bad wf => ⟨_, read, ?_⟩⟩
    · obtain ⟨b, -, ended⟩ := w.patrolAt_readable (n := n) (State.readable_clean (by rw [store]; exact clean))
      rw [read, ended, Work.readWord_clean (by rw [store]; exact clean), ← hw]
      rfl
    · obtain ⟨b, repairs, ended⟩ := w.patrolAt_readable (n := n) (by simp [State.readable, Store.readable, store, flawed])
      have pinned : w.nonePinned := by unfold State.nonePinned State.ctx; rw [ctxs]; exact pinned
      obtain ⟨l, ctl', store', latched⟩ := Work.readWord_counts (w := w) (n := n) (by rw [store]; exact flawed) .patrol
      rw [ended, repairs pinned, ctl', store', store, ctl]
      exact ⟨rfl, Store.flaw_setFlaw_self wf hn none, rfl, latched, empty, rfl⟩
    · have geometry : w.geometry = s.geometry := by unfold State.geometry; rw [ctl]
      have holder : w.holderOf f = some (p, c) := by rw [← hw]; exact holder
      rw [Work.patrolAt_frame (by rw [geometry]; exact word) (by rw [geometry]; exact hk), ← store]
      exact Work.patrolFrame_held (by rw [store]; exact bad) part holder free (by rw [ctl]; exact empty)
    · have geometry : w.geometry = s.geometry := by unfold State.geometry; rw [ctl]
      have holder : w.holderOf f = none := by rw [← hw]; exact holder
      rw [Work.patrolAt_frame (by rw [geometry]; exact word) (by rw [geometry]; exact hk)]
      exact Work.patrolFrame_free (by rw [store]; exact bad) holder (by rw [ctl]; exact free) hf
    · subst word
      have map : w.patrolAt (mapWord p) = w.patrolMap p := Work.patrolAt_map p
      have kept := Work.patrolMap_rewrites (w := w) (p := p) (by rw [store]; exact bad) (by unfold State.storeWf; rw [store]; exact wf) post
      rw [ctl] at kept
      rw [map]
      exact kept
    · subst zero
      have kept := Work.patrolHeader_format (w := w) (by rw [store]; exact bad) (by unfold State.storeWf; rw [store]; exact wf) post
      rw [ctl] at kept
      exact kept

end Sys2Proof.Machine
end
section
/-! SUPPORT. The START scan: what it leaves of the map, the frames and the pools (R46, R51, R52). -/

namespace Sys2Proof.Machine

/-! ### Folds over places that do not meet -/

section
variable {α : Type} {f : Work → α → Work} {A : α → Prop} {P : α → State → Prop}

/-- A view that no step changes is that of the start. -/
theorem foldl_stands {β : Type} {v : State → β} (h : ∀ (w : Work) a, A a → v (f w a).toState = v w.toState) :
    ∀ (l : List α) (w : Work), (∀ a ∈ l, A a) → v (l.foldl f w).toState = v w.toState
  | [], _, _ => rfl
  | a :: l, w, all => by
    obtain ⟨here, all⟩ := List.forall_mem_cons.1 all
    exact (foldl_stands h l (f w a) all).trans (h w a here)

/-- What each step keeps of the other places stands for a place that the fold leaves out. -/
theorem foldl_rest (keeps : ∀ (w : Work) a b, A a → b ≠ a → P b w.toState → P b (f w a).toState) :
    ∀ (l : List α) {w : Work} {b : α}, (∀ a ∈ l, A a) → b ∉ l → P b w.toState → P b (l.foldl f w).toState
  | [], _, _, _, _, h => h
  | a :: l, w, b, all, out, h => by
    obtain ⟨here, all⟩ := List.forall_mem_cons.1 all
    have other : b ≠ a := fun e => out (e ▸ List.mem_cons_self ..)
    exact foldl_rest keeps l all (fun hb => out (List.mem_cons_of_mem _ hb)) (keeps w a b here other h)

/-- What each step brings about at its own place, and keeps at the others, the fold brings about at every place. -/
theorem foldl_each {Q : α → State → Prop} (does : ∀ (w : Work) a, A a → Q a w.toState → P a (f w a).toState)
    (waits : ∀ (w : Work) a b, A a → b ≠ a → Q b w.toState → Q b (f w a).toState)
    (keeps : ∀ (w : Work) a b, A a → b ≠ a → P b w.toState → P b (f w a).toState) :
    ∀ (l : List α) {w : Work}, l.Nodup → (∀ a ∈ l, A a) → (∀ a ∈ l, Q a w.toState) → ∀ a ∈ l, P a (l.foldl f w).toState
  | [], _, _, _, _, _, ha => absurd ha List.not_mem_nil
  | a :: l, w, distinct, all, h, b, hb => by
    obtain ⟨out, distinct⟩ := List.nodup_cons.1 distinct
    obtain ⟨first, h⟩ := List.forall_mem_cons.1 h
    obtain ⟨here, others⟩ := List.forall_mem_cons.1 all
    have rest : ∀ b ∈ l, Q b (f w a).toState := fun b hb => waits w a b here (fun e => out (e ▸ hb)) (h b hb)
    rcases List.mem_cons.1 hb with rfl | hb
    · exact foldl_rest keeps l others out (does w b here first)
    · exact foldl_each does waits keeps l distinct others rest b hb

end

/-! ### What the steps of the scan change -/

/-- The frames, the quarantine set, the map mirror and the format word. -/
def State.placing (s : State) : (Nat → Frame) × BitVec 48 × Vector MapEntry 32 × FormatWord :=
  (s.store.frame, s.ctl.quarantine, s.ctl.mirror, s.ctl.format)

/-- Only frame `f` and its place in the quarantine set may change. -/
structure State.OnlyFrame (f : Nat) (s t : State) : Prop where
  mirror : t.ctl.mirror = s.ctl.mirror
  format : t.ctl.format = s.ctl.format
  frame : ∀ g, g ≠ f → t.store.frame g = s.store.frame g
  quarantined : ∀ g, g ≠ f → t.quarantined g = s.quarantined g

/-- Only the mirror entry of `p` may change. -/
structure State.OnlyEntry (p : Pocket) (s t : State) : Prop where
  format : t.ctl.format = s.ctl.format
  frame : t.store.frame = s.store.frame
  quarantine : t.ctl.quarantine = s.ctl.quarantine
  mirror : ∀ q, q ≠ p → t.ctl.mirror[q] = s.ctl.mirror[q]

section
variable {s t u : State} {f : Nat} {p : Pocket}

theorem State.OnlyFrame.of_placing (h : t.placing = s.placing) : State.OnlyFrame f s t := by
  obtain ⟨frame, quarantine, mirror, format⟩ : _ ∧ _ ∧ _ ∧ _ := by simpa [State.placing] using h
  exact ⟨mirror, format, fun g _ => by rw [frame], fun g _ => by unfold State.quarantined; rw [quarantine]⟩

theorem State.OnlyFrame.trans (a : State.OnlyFrame f s t) (b : State.OnlyFrame f t u) : State.OnlyFrame f s u where
  mirror := b.mirror.trans a.mirror
  format := b.format.trans a.format
  frame g hg := (b.frame g hg).trans (a.frame g hg)
  quarantined g hg := (b.quarantined g hg).trans (a.quarantined g hg)

theorem State.OnlyEntry.of_placing (h : t.placing = s.placing) : State.OnlyEntry p s t := by
  obtain ⟨frame, quarantine, mirror, format⟩ : _ ∧ _ ∧ _ ∧ _ := by simpa [State.placing] using h
  exact ⟨format, frame, quarantine, fun q _ => by rw [mirror]⟩

theorem State.OnlyEntry.trans (a : State.OnlyEntry p s t) (b : State.OnlyEntry p t u) : State.OnlyEntry p s u where
  format := b.format.trans a.format
  frame := b.frame.trans a.frame
  quarantine := b.quarantine.trans a.quarantine
  mirror q hq := (b.mirror q hq).trans (a.mirror q hq)

end

section
variable (w : Work)

theorem Work.wrote_placing (n : Nat) : (w.wrote n).placing = w.placing := by
  have frame : (w.wrote n).store.frame = w.store.frame := funext fun f => Store.setFlaw_frame _ _ _ f
  unfold State.placing
  rw [frame]
  rfl

theorem Work.offer_placing (n : Nat) (x : Flaw) (src : LatchSource) : (w.offer n x src).placing = w.placing := by
  obtain ⟨l, ctl, store, -⟩ := w.offer_latches n x src
  unfold State.placing
  rw [ctl, store]

theorem Work.readWord_placing (n : Nat) (src : LatchSource) (b : Bool) : (w.readWord n src b).placing = w.placing := by
  have counted : (w.countCorrectable.offer n .correctable src).placing = w.placing := Work.offer_placing _ _ _ _
  unfold Work.readWord
  split
  · rfl
  · dsimp only
    split
    · exact (Work.wrote_placing _ _).trans counted
    · exact counted
  · exact w.offer_placing _ _ _

theorem Work.readWords_placing {α : Type} (g : Work → α → Nat) (src : LatchSource) (b : Bool) (l : List α) :
    (l.foldl (fun w a => w.readWord (g w a) src b) w).placing = w.placing :=
  foldl_view State.placing _ (fun w _ => w.readWord_placing _ src b) l w

theorem Store.fail_frame (s : Store) (x : Nat × Flaw) (f : Nat) : (s.fail x).frame f = s.frame f := by
  unfold Store.fail
  split
  · rfl
  · exact Store.setFlaw_frame _ _ _ f

theorem Work.fail_placing (xs : List (Nat × Flaw)) : (w.fail xs).placing = w.placing := by
  have frame (xs : List (Nat × Flaw)) : ∀ s : Store, (xs.foldl Store.fail s).frame = s.frame := by
    induction xs with
    | nil => exact fun _ => rfl
    | cons x xs ih => exact fun s => (ih _).trans (funext (Store.fail_frame s x))
  have kept : (w.fail xs).store.frame = w.store.frame := frame xs w.store
  unfold State.placing
  rw [kept]
  rfl

theorem Work.writeMap_entry (p : Pocket) (e : MapEntry) :
    (w.writeMap p e).placing = ({ w with ctl := { w.ctl with mirror := upd w.ctl.mirror p e } } : Work).placing := by
  have put : (w.mapPut p e).placing = ({ w with ctl := { w.ctl with mirror := upd w.ctl.mirror p e } } : Work).placing :=
    (Work.wrote_placing { w with store := { w.store with map := upd w.store.map p e }, ctl := { w.ctl with mirror := upd w.ctl.mirror p e } } _)
  have failed : ((w.mapPut p e).failAfterWrite (mapWord p)).placing = (w.mapPut p e).placing := Work.fail_placing _ _
  rw [Work.writeMap_eq]
  refine Eq.trans ?_ (failed.trans put)
  generalize (w.mapPut p e).failAfterWrite (mapWord p) = v
  have read : (v.readWord (mapWord p) .read true).placing = v.placing := v.readWord_placing _ _ _
  unfold Work.mapReadBack
  dsimp only
  split <;> exact read

theorem Work.writeMap_mirror (p : Pocket) (e : MapEntry) : (w.writeMap p e).ctl.mirror[p] = e :=
  (congrArg (fun x : (Nat → Frame) × BitVec 48 × Vector MapEntry 32 × FormatWord => x.2.2.1[p]) (w.writeMap_entry p e)).trans (upd_self _ _ _)

theorem Work.writeMap_only (p : Pocket) (e : MapEntry) : State.OnlyEntry p w.toState (w.writeMap p e).toState := by
  obtain ⟨frame, quarantine, mirror, format⟩ : _ ∧ _ ∧ _ ∧ _ := by simpa [State.placing] using w.writeMap_entry p e
  exact ⟨format, frame, quarantine, fun q hq => by rw [mirror]; exact upd_other _ _ hq⟩

/-- A frame is written, of which the header is `h`. -/
theorem Work.frame_setFrame_only {f : Nat} (hf : f < 48) (x : Frame) (n : Nat) :
    State.OnlyFrame f w.toState (({ w with store := w.store.setFrame f x } : Work).wrote n).toState ∧
    (({ w with store := w.store.setFrame f x } : Work).wrote n).store.frame f = x := by
  have frame (g : Nat) : (({ w with store := w.store.setFrame f x } : Work).wrote n).store.frame g = (w.store.setFrame f x).frame g :=
    Store.setFlaw_frame _ _ _ g
  refine ⟨⟨rfl, rfl, fun g hg => (frame g).trans ?_, fun _ _ => rfl⟩, (frame f).trans (Store.frame_setFrame_self hf x)⟩
  rw [Store.frame_setFrame _ _ _ _ hf, if_neg hg]

theorem Work.writeHeader_only {f : Nat} (hf : f < 48) (h : Header) :
    State.OnlyFrame f w.toState (w.writeHeader f h).toState ∧ ((w.writeHeader f h).store.frame f).header = h := by
  obtain ⟨only, here⟩ := w.frame_setFrame_only hf { w.store.frame f with header := h } (frameWord w.geometry f 0)
  exact ⟨only, congrArg Frame.header here⟩

/-- A frame joins the quarantine set (R46). -/
theorem Work.quarantineFrame_only {f : Nat} (hf : f < 48) :
    State.OnlyFrame f w.toState (w.quarantineFrame f).toState ∧ (w.quarantineFrame f).quarantined f = true ∧
    (w.quarantineFrame f).store = w.store := by
  have bit (g : Nat) : (w.quarantineFrame f).quarantined g = (w.quarantined g || decide (f = g)) := by
    simp [State.quarantined, Work.quarantineFrame, hf]
  refine ⟨⟨rfl, rfl, fun _ _ => rfl, fun g hg => ?_⟩, ?_, rfl⟩
  · rw [bit]
    simp [hg.symm]
  · rw [bit]
    simp

theorem State.withdrawnHeader_state (s : State) (f : Nat) (x : FrameState) : (s.withdrawnHeader f x).state = x := by
  unfold State.withdrawnHeader
  dsimp only
  split <;> rfl

/-- A frame in the quarantine set is the one whose header says so. -/
def State.poolAgrees (s : State) (f : Nat) : Prop := s.quarantined f = true ↔ (s.store.frame f).header.state = .quarantined

theorem State.poolAgrees_of {s : State} {f : Nat} (h : s.quarantined f = true) (h' : (s.store.frame f).header.state = .quarantined) :
    s.poolAgrees f := ⟨fun _ => h', fun _ => h⟩

/-- A frame is withdrawn (R46). -/
theorem Work.withdraw_only {f : Nat} (hf : f < 48) :
    State.OnlyFrame f w.toState (w.withdraw f).toState ∧ (w.withdraw f).quarantined f = true ∧
    ((w.withdraw f).store.frame f).header.state = .quarantined := by
  obtain ⟨wrote, header⟩ := w.writeHeader_only hf (w.withdrawnHeader f .quarantined)
  obtain ⟨joined, quarantined, store⟩ := (w.writeHeader f (w.withdrawnHeader f .quarantined)).quarantineFrame_only hf
  refine ⟨wrote.trans joined, quarantined, ?_⟩
  have state : ((w.writeHeader f (w.withdrawnHeader f .quarantined)).store.frame f).header.state = .quarantined := by
    rw [header]
    exact w.withdrawnHeader_state f _
  exact state

theorem State.poolAgrees_of_placing {s t : State} (h : t.placing = s.placing) (f : Nat) : t.poolAgrees f ↔ s.poolAgrees f := by
  obtain ⟨frame, quarantine, -, -⟩ : _ ∧ _ ∧ _ ∧ _ := by simpa [State.placing] using h
  unfold State.poolAgrees State.quarantined
  rw [frame, quarantine]

theorem Frame.copyWord_stamp_header (g : Geometry) (x y : Frame) : (Frame.copyWord (roleOf g (stampWord g)) x y).header = y.header := by
  cases g <;> rfl

/-- The scan of a frame that is in no set yet (R51). -/
theorem Work.scanFrame_places (lost : Bool) {f : Nat} (hf : f < 48) :
    State.OnlyFrame f w.toState (w.scanFrame lost f).toState ∧ (w.quarantined f = false → (w.scanFrame lost f).poolAgrees f) := by
  have head (b : Bool) : (w.readWord (frameWord w.geometry f 0) .scan b).placing = w.placing := w.readWord_placing _ _ _
  have body (b : Bool) (l : List Nat) : (l.foldl (fun (w : Work) k => w.readWord (frameWord w.geometry f k) .scan true)
      (w.readWord (frameWord w.geometry f 0) .scan b)).placing = w.placing :=
    (Work.readWords_placing _ (fun (w : Work) k => frameWord w.geometry f k) .scan true l).trans (head b)
  have withdrawn (v : Work) (h : v.placing = w.placing) : State.OnlyFrame f w.toState (v.withdraw f).toState ∧ (v.withdraw f).poolAgrees f := by
    obtain ⟨only, quarantined, state⟩ := v.withdraw_only hf
    exact ⟨(State.OnlyFrame.of_placing h).trans only, State.poolAgrees_of quarantined state⟩
  have same (v : Work) (h : v.placing = w.placing) (live : (w.store.frame f).header.state ≠ .quarantined) :
      State.OnlyFrame f w.toState v.toState ∧ (w.quarantined f = false → v.poolAgrees f) := by
    refine ⟨State.OnlyFrame.of_placing h, fun out => (State.poolAgrees_of_placing h f).2 ⟨fun q => ?_, fun q => absurd q live⟩⟩
    exact absurd q (by simp [out])
  unfold Work.scanFrame
  dsimp only
  split
  · obtain ⟨only, agrees⟩ := withdrawn _ (head _)
    exact ⟨only, fun _ => agrees⟩
  · split
    · next state =>
      obtain ⟨joined, quarantined, store⟩ :=
        (w.readWord (frameWord w.geometry f 0) .scan ((w.store.frame f).header.state != .quarantined)).quarantineFrame_only hf
      refine ⟨(State.OnlyFrame.of_placing (head _)).trans joined, fun _ => State.poolAgrees_of quarantined ?_⟩
      have frame : (w.readWord (frameWord w.geometry f 0) .scan ((w.store.frame f).header.state != .quarantined)).store.frame = w.store.frame :=
        congrArg Prod.fst (head _)
      rw [store, frame]
      exact state
    · next live =>
      split
      · split
        · obtain ⟨only, agrees⟩ := withdrawn _ (body _ _)
          exact ⟨only, fun _ => agrees⟩
        · exact same _ (body _ _) live
      · split
        · have read := body ((w.store.frame f).header.state != .quarantined) ((List.range (frameSize
            (w.readWord (frameWord w.geometry f 0) .scan ((w.store.frame f).header.state != .quarantined)).geometry)).drop 1)
          generalize List.foldl _ _ _ = v at read ⊢
          obtain ⟨only, here⟩ := v.frame_setFrame_only hf (Frame.copyWord (roleOf v.geometry (stampWord v.geometry))
            { v.store.frame f with stamp := none } (v.store.frame f)) (frameWord v.geometry f (stampWord v.geometry))
          refine ⟨(State.OnlyFrame.of_placing read).trans only, fun out => ?_⟩
          obtain ⟨frame, quarantine, -, -⟩ : _ ∧ _ ∧ _ ∧ _ := by simpa [State.placing] using read
          have quarantined : v.quarantined f = false := by unfold State.quarantined; rw [quarantine]; exact out
          have header : (v.writeFrameWord f (stampWord v.geometry) { v.store.frame f with stamp := none }).store.frame f =
              Frame.copyWord (roleOf v.geometry (stampWord v.geometry)) { v.store.frame f with stamp := none } (v.store.frame f) := here
          refine ⟨fun q => Bool.noConfusion (quarantined.symm.trans q), fun q => absurd q ?_⟩
          rw [header, Frame.copyWord_stamp_header, frame]
          exact live
        · exact same _ (body _ _) live

/-- The scan of a map word: no entry past P stays valid (R51). -/
theorem Work.scanMapWord_entry (p : Pocket) : State.OnlyEntry p w.toState (w.scanMapWord p).toState ∧
    (w.count ≤ p.val → ((w.scanMapWord p).ctl.mirror[p]).valid = false) := by
  have read := w.readWord_placing (mapWord p) .scan true
  have format : (w.readWord (mapWord p) .scan true).ctl.format = w.ctl.format :=
    congrArg (fun x : (Nat → Frame) × BitVec 48 × Vector MapEntry 32 × FormatWord => x.2.2.2) read
  have readOnly : State.OnlyEntry p w.toState (w.readWord (mapWord p) .scan true).toState := .of_placing read
  unfold Work.scanMapWord
  dsimp only
  generalize w.readWord (mapWord p) .scan true = v at read format readOnly ⊢
  generalize (if w.readable (mapWord p) = true then v.store.map[p] else MapEntry.none) = e
  have count : v.count = w.count := by unfold State.count; rw [format]
  have mirrored (e : MapEntry) : State.OnlyEntry p w.toState ({ v with ctl := { v.ctl with mirror := upd v.ctl.mirror p e } } : Work).toState :=
    readOnly.trans ⟨rfl, rfl, rfl, fun q hq => upd_other _ _ hq⟩
  split
  · refine ⟨(mirrored _).trans (Work.writeMap_only _ p _), fun _ => ?_⟩
    rw [Work.writeMap_mirror]
  · next kept =>
    refine ⟨mirrored _, fun past => ?_⟩
    have here : (upd v.ctl.mirror p e)[p] = e := upd_self _ _ _
    refine (congrArg MapEntry.valid here).trans (Bool.eq_false_iff.2 fun valid => kept ⟨?_, .inl valid⟩)
    rw [← count] at past
    exact past

/-- A mirror entry that is valid names a LIVE frame of its pocket and generation. -/
def State.entryHolds (s : State) (p : Pocket) : Prop := (s.ctl.mirror[p]).valid = true →
  s.candidate p (s.ctl.mirror[p]).frame = true ∧ (s.store.frame (s.ctl.mirror[p]).frame).header.gen = (s.ctl.mirror[p]).gen

theorem State.candidate_of {s t : State} (frame : t.store.frame = s.store.frame) (format : t.ctl.format = s.ctl.format) (p : Pocket) (f : Nat) :
    t.candidate p f = s.candidate p f := by
  unfold State.candidate State.geometry
  rw [frame, format]

theorem State.chosen_candidate {s : State} {p : Pocket} {f : Nat} (h : s.chosen p = some f) : s.candidate p f = true := by
  have holds : f ∈ s.frameNumbers.filter (s.candidate p) := by
    unfold State.chosen at h
    dsimp only at h
    split at h
    · next found => exact Option.some.inj h ▸ List.mem_of_find?_eq_some found
    · split at h
      · next found => exact Option.some.inj h ▸ List.mem_of_find?_eq_some found
      · exact List.mem_of_head? h
  exact (List.mem_filter.1 holds).2

/-- A map entry is settled against the frames (R52). -/
theorem Work.resolve_entry (p : Pocket) (rebuild : Bool) : State.OnlyEntry p w.toState (w.resolve p rebuild).toState ∧
    (w.resolve p rebuild).entryHolds p := by
  have wrote (e : MapEntry) (h : e.valid = true → w.candidate p e.frame = true ∧ (w.store.frame e.frame).header.gen = e.gen) :
      State.OnlyEntry p w.toState (w.writeMap p e).toState ∧ (w.writeMap p e).entryHolds p := by
    have only := w.writeMap_only p e
    refine ⟨only, ?_⟩
    unfold State.entryHolds
    rw [Work.writeMap_mirror, State.candidate_of only.frame only.format, only.frame]
    exact h
  unfold Work.resolve
  dsimp only
  split
  · split
    · next f chosen => exact wrote _ fun _ => ⟨State.chosen_candidate chosen, rfl⟩
    · exact wrote _ fun valid => Bool.noConfusion valid
  · split
    · obtain ⟨only, holds⟩ := wrote ⟨false, 0, (w.ctl.mirror[p]).gen⟩ fun valid => Bool.noConfusion valid
      exact ⟨only.trans ⟨rfl, rfl, rfl, fun _ _ => rfl⟩, holds⟩
    · next good =>
      refine ⟨⟨rfl, rfl, rfl, fun _ _ => rfl⟩, fun valid => ?_⟩
      refine (?_ : (w.ctl.mirror[p]).valid = true → _) valid
      simpa using good

/-- A frame of no entry that is LIVE is freed or withdrawn (R52). -/
theorem Work.settleOrphan_frame {f : Nat} (hf : f < 48) : State.OnlyFrame f w.toState (w.settleOrphan f).toState ∧
    (w.poolAgrees f → (w.settleOrphan f).poolAgrees f) ∧
    (((w.settleOrphan f).store.frame f).header.state = .live → (w.pockets.any fun p => w.recordFrame p == some f) = true) ∧
    ((w.pockets.any fun p => w.recordFrame p == some f) = true → w.settleOrphan f = w) := by
  unfold Work.settleOrphan
  dsimp only
  split
  · next orphan =>
    have none : ¬ (w.pockets.any fun p => w.recordFrame p == some f) = true := by simpa using orphan.2
    split
    · obtain ⟨only, quarantined, state⟩ := w.withdraw_only hf
      exact ⟨only, fun _ => State.poolAgrees_of quarantined state, fun live => absurd (state.symm.trans live) FrameState.noConfusion, fun h => absurd h none⟩
    · obtain ⟨only, header⟩ := w.writeHeader_only hf (w.withdrawnHeader f .free)
      have state : ((w.writeHeader f (w.withdrawnHeader f .free)).store.frame f).header.state = .free := by
        rw [header]
        exact w.withdrawnHeader_state f _
      refine ⟨only, fun agrees => ⟨fun q => ?_, fun q => absurd (state.symm.trans q) FrameState.noConfusion⟩,
        fun live => absurd (state.symm.trans live) FrameState.noConfusion, fun h => absurd h none⟩
      exact absurd (orphan.1.symm.trans (agrees.1 q)) FrameState.noConfusion
  · next kept =>
    refine ⟨.of_placing rfl, id, fun live => ?_, fun _ => rfl⟩
    by_contra none
    exact kept ⟨live, by simpa using none⟩

end


/-! ### The stages of the scan -/

section
variable (w : Work)

theorem State.frameNumbers_lt (s : State) : ∀ f ∈ s.frameNumbers, f < 48 := by
  intro f hf
  have bound := List.mem_range.1 hf
  cases h : s.geometry <;> rw [h] at bound <;> simp only [frameCount] at bound <;> omega

theorem State.frameNumbers_nodup (s : State) : s.frameNumbers.Nodup := List.nodup_range

theorem State.mem_pockets {s : State} {p : Pocket} : p ∈ s.pockets ↔ p.val < s.count := by
  simp [State.pockets, allPockets]

theorem State.pockets_nodup (s : State) : s.pockets.Nodup := (List.nodup_finRange 32).filter _

/-- The map words are scanned. -/
theorem Work.scanMapWords_entries {w v : Work} (h : allPockets.foldl (fun w p => w.scanMapWord p) w = v) :
    v.ctl.format = w.ctl.format ∧ v.ctl.quarantine = w.ctl.quarantine ∧ ∀ p : Pocket, v.count ≤ p.val → (v.ctl.mirror[p]).valid = false := by
  have all (p : Pocket) : p ∈ allPockets := List.mem_finRange p
  have distinct : allPockets.Nodup := List.nodup_finRange 32
  generalize allPockets = l at all distinct h
  subst h
  have count (s t : State) (h : t.ctl.format = s.ctl.format) : t.count = s.count := by unfold State.count; rw [h]
  refine ⟨foldl_view (fun s : State => s.ctl.format) _ (fun w p => (w.scanMapWord_entry p).1.format) _ w,
    foldl_view (fun s : State => s.ctl.quarantine) _ (fun w p => (w.scanMapWord_entry p).1.quarantine) _ w, fun p => ?_⟩
  refine foldl_each (A := fun _ => True) (Q := fun _ _ => True) (P := fun (p : Pocket) s => s.count ≤ p.val → (s.ctl.mirror[p]).valid = false)
    (fun w p _ _ past => ?_) (fun _ _ _ _ _ => id) (fun w p q _ other h past => ?_) l distinct (fun _ _ => trivial) (fun _ _ => trivial) p (all p)
  · obtain ⟨only, invalid⟩ := w.scanMapWord_entry p
    exact invalid (by rw [← count _ _ only.format]; exact past)
  · obtain ⟨only, -⟩ := w.scanMapWord_entry p
    rw [only.mirror q other]
    exact h (by rw [← count _ _ only.format]; exact past)

/-- The frames are scanned. -/
theorem Work.scanFrames_places {w v : Work} {lost : Bool} (h : w.frameNumbers.foldl (fun w f => w.scanFrame lost f) w = v) :
    v.ctl.mirror = w.ctl.mirror ∧ v.ctl.format = w.ctl.format ∧
    ((∀ f, w.quarantined f = false) → ∀ f ∈ w.frameNumbers, v.poolAgrees f) := by
  subst h
  have only (w : Work) {f : Nat} (hf : f < 48) := (w.scanFrame_places lost hf).1
  refine ⟨?_, ?_, fun none => ?_⟩
  · exact foldl_stands (A := fun f => f < 48) (v := fun s : State => s.ctl.mirror) (fun w _ hf => (only w hf).mirror) _ w w.frameNumbers_lt
  · exact foldl_stands (A := fun f => f < 48) (v := fun s : State => s.ctl.format) (fun w _ hf => (only w hf).format) _ w w.frameNumbers_lt
  · refine foldl_each (A := fun f => f < 48) (Q := fun f s => s.quarantined f = false) (P := fun f s => s.poolAgrees f)
      (fun w f hf out => (w.scanFrame_places lost hf).2 out) (fun w f g hf other out => ((only w hf).quarantined g other).trans out)
      (fun w f g hf other agrees => ?_) _ w.frameNumbers_nodup w.frameNumbers_lt (fun f _ => none f)
    unfold State.poolAgrees
    rw [(only w hf).quarantined g other, (only w hf).frame g other]
    exact agrees

theorem State.entryHolds_of {s t : State} {p : Pocket} (frame : t.store.frame = s.store.frame) (format : t.ctl.format = s.ctl.format)
    (entry : t.ctl.mirror[p] = s.ctl.mirror[p]) (h : s.entryHolds p) : t.entryHolds p := by
  unfold State.entryHolds
  rw [entry, State.candidate_of frame format, frame]
  exact h

/-- The map is settled against the frames (R52). -/
theorem Work.resolves_entries {w v : Work} {rebuild : Pocket → Bool} (h : w.pockets.foldl (fun w p => w.resolve p (rebuild p)) w = v)
    (past : ∀ p : Pocket, w.count ≤ p.val → (w.ctl.mirror[p]).valid = false) :
    v.ctl.format = w.ctl.format ∧ v.ctl.quarantine = w.ctl.quarantine ∧ v.store.frame = w.store.frame ∧
    ∀ p : Pocket, (v.ctl.mirror[p]).valid = true → p.val < v.count ∧ v.entryHolds p := by
  subst h
  have only (w : Work) (p : Pocket) := (w.resolve_entry p (rebuild p)).1
  have format : (w.pockets.foldl (fun w p => w.resolve p (rebuild p)) w).ctl.format = w.ctl.format :=
    foldl_view (fun s : State => s.ctl.format) _ (fun w p => (only w p).format) _ w
  have count : (w.pockets.foldl (fun w p => w.resolve p (rebuild p)) w).count = w.count := by unfold State.count; rw [format]
  refine ⟨format, foldl_view (fun s : State => s.ctl.quarantine) _ (fun w p => (only w p).quarantine) _ w,
    foldl_view (fun s : State => s.store.frame) _ (fun w p => (only w p).frame) _ w, fun p valid => ?_⟩
  rw [count]
  by_cases low : p.val < w.count
  · refine ⟨low, ?_⟩
    exact foldl_each (A := fun _ => True) (Q := fun _ _ => True) (P := fun p s => s.entryHolds p)
      (fun w p _ _ => (w.resolve_entry p (rebuild p)).2) (fun _ _ _ _ _ => id)
      (fun w p q _ other => State.entryHolds_of (only w p).frame (only w p).format ((only w p).mirror q other))
      _ w.pockets_nodup (fun _ _ => trivial) (fun _ _ => trivial) p (State.mem_pockets.2 low)
  · have invalid : ((w.pockets.foldl (fun w p => w.resolve p (rebuild p)) w).ctl.mirror[p]).valid = false :=
      foldl_rest (A := fun _ => True) (P := fun (p : Pocket) s => (s.ctl.mirror[p]).valid = false)
        (fun w p q _ other h => by rw [(only w p).mirror q other]; exact h) _ (fun _ _ => trivial)
        (fun h => low (State.mem_pockets.1 h)) (past p (Nat.le_of_not_lt low))
    exact Bool.noConfusion (invalid.symm.trans valid)

/-- Every valid mirror entry belongs to a pocket below P and names a LIVE frame of that pocket and generation (R52). -/
def State.mapHolds (s : State) : Prop := ∀ p : Pocket, (s.ctl.mirror[p]).valid = true → p.val < s.count ∧ s.entryHolds p

/-- A frame that an entry names is no orphan. -/
theorem State.named_of_valid {s : State} {p : Pocket} (h : s.mapHolds) (valid : (s.ctl.mirror[p]).valid = true) :
    (s.pockets.any fun q => s.recordFrame q == some (s.ctl.mirror[p]).frame) = true := by
  refine List.any_eq_true.2 ⟨p, State.mem_pockets.2 (h p valid).1, ?_⟩
  unfold State.recordFrame
  rw [if_pos valid]
  exact beq_self_eq_true _

theorem State.recordFrame_named {s : State} {f : Nat} (h : (s.pockets.any fun q => s.recordFrame q == some f) = true) : ∃ p, s.isRecordFrame p f := by
  obtain ⟨p, -, record⟩ := List.any_eq_true.1 h
  refine ⟨p, ?_⟩
  unfold State.recordFrame at record
  split at record
  · next valid => exact ⟨valid, by simpa using record⟩
  · simp at record

/-- The settling of an orphan leaves the map in agreement with the frames. -/
theorem Work.settleOrphan_mapHolds {f : Nat} (hf : f < 48) (h : w.mapHolds) : (w.settleOrphan f).mapHolds := by
  obtain ⟨only, -, -, spares⟩ := w.settleOrphan_frame hf
  intro p valid
  rw [only.mirror] at valid
  obtain ⟨low, holds⟩ := h p valid
  refine ⟨by unfold State.count; rw [only.format]; exact low, ?_⟩
  by_cases e : (w.ctl.mirror[p]).frame = f
  · rw [spares (e ▸ State.named_of_valid h valid)]
    exact holds
  · intro _
    unfold State.candidate State.geometry
    rw [only.mirror, only.frame _ e, only.format]
    exact holds valid

/-- The orphans are freed or withdrawn (R52). -/
theorem Work.settleOrphans_places {w v : Work} (hv : w.frameNumbers.foldl (fun w f => w.settleOrphan f) w = v) (h : w.mapHolds) :
    v.ctl.format = w.ctl.format ∧ v.mapHolds ∧
    ((∀ f ∈ w.frameNumbers, w.poolAgrees f) → ∀ f ∈ w.frameNumbers, v.poolAgrees f ∧
      ((v.store.frame f).header.state = .live → ∃ p, v.isRecordFrame p f)) := by
  subst hv
  have only (w : Work) {f : Nat} (hf : f < 48) := (w.settleOrphan_frame hf).1
  have mirror : (w.frameNumbers.foldl (fun w f => w.settleOrphan f) w).ctl.mirror = w.ctl.mirror :=
    foldl_stands (A := fun f => f < 48) (v := fun s : State => s.ctl.mirror) (fun w _ hf => (only w hf).mirror) _ w w.frameNumbers_lt
  refine ⟨?_, ?_, fun agrees => ?_⟩
  · exact foldl_stands (A := fun f => f < 48) (v := fun s : State => s.ctl.format) (fun w _ hf => (only w hf).format) _ w w.frameNumbers_lt
  · have kept : ∀ (l : List Nat) {v : Work}, (∀ f ∈ l, f < 48) → v.mapHolds → (l.foldl (fun w f => w.settleOrphan f) v).mapHolds := by
      intro l
      induction l with
      | nil => exact fun _ h => h
      | cons f l ih =>
        intro v low h
        obtain ⟨here, low⟩ := List.forall_mem_cons.1 low
        exact ih low (v.settleOrphan_mapHolds here h)
    exact kept _ w.frameNumbers_lt h
  · refine foldl_each (A := fun f => f < 48) (Q := fun f s => s.poolAgrees f)
      (P := fun f s => s.poolAgrees f ∧ ((s.store.frame f).header.state = .live → ∃ p, s.isRecordFrame p f))
      (fun w f hf agrees => ?_) (fun w f g hf other agrees => ?_) (fun w f g hf other ⟨agrees, named⟩ => ⟨?_, fun live => ?_⟩)
      _ w.frameNumbers_nodup w.frameNumbers_lt agrees
    · obtain ⟨only, keeps, named, spares⟩ := w.settleOrphan_frame hf
      refine ⟨keeps agrees, fun live => ?_⟩
      rw [spares (named live)]
      exact State.recordFrame_named (named live)
    · unfold State.poolAgrees
      rw [(only w hf).quarantined g other, (only w hf).frame g other]
      exact agrees
    · unfold State.poolAgrees
      rw [(only w hf).quarantined g other, (only w hf).frame g other]
      exact agrees
    · rw [(only w hf).frame g other] at live
      obtain ⟨p, record⟩ := named live
      refine ⟨p, ?_⟩
      unfold State.isRecordFrame
      rw [(only w hf).mirror]
      exact record

end

end Sys2Proof.Machine
end
section
/-! SUPPORT. The START scan as a whole (R51, R52, R190). -/

namespace Sys2Proof.Machine

/-! ### The body of the scan -/

/-- The pockets past P are ABSENT. -/
def Work.scanAbsent (w : Work) : Work :=
  allPockets.foldl (fun w p => if w.count ≤ p.val then w.setLinkState p .absent none else w) w

/-- The map words are scanned, the mark being read before. -/
def Work.scanMap (w : Work) : Work := allPockets.foldl (fun w p => w.scanMapWord p) w.scanAbsent.scanMark

/-- The frames are scanned. -/
def Work.scanFrames (w : Work) : Work :=
  w.scanMap.frameNumbers.foldl (fun v f => v.scanFrame (!w.scanAbsent.readable markWord) f) w.scanMap

/-- The map is settled against the frames. -/
def Work.scanResolved (w : Work) : Work :=
  w.scanFrames.pockets.foldl (fun v p => v.resolve p
    ((w.scanAbsent.scanMark.pockets.filter fun p => !w.scanAbsent.scanMark.readable (mapWord p)).contains p)) w.scanFrames

/-- The orphans are settled. -/
def Work.scanSettled (w : Work) : Work := w.scanResolved.frameNumbers.foldl (fun v f => v.settleOrphan f) w.scanResolved

theorem Work.scanBody_eq (w : Work) : w.scanBody =
    { w.scanSettled with
      ctl := { w.scanSettled.ctl with
        free := w.scanSettled.frameNumbers.filter fun f => (w.scanSettled.store.frame f).header.state == .free && !w.scanSettled.quarantined f
        scanDone := true }
      plan := { w.scanSettled.plan with
        images := Vector.ofFn fun p => if p.val < w.scanSettled.count then (w.scanSettled.recordFrame p).map w.scanSettled.scanImage else none } } := by
  unfold Work.scanBody Work.scanSettled Work.scanResolved Work.scanFrames Work.scanMap Work.scanAbsent
  generalize allPockets = l
  rfl

section
variable (w : Work)

theorem Work.setLinkState_placing (p : Pocket) (x : LinkState) (c : Option FaultCause) : (w.setLinkState p x c).placing = w.placing := by
  unfold Work.setLinkState
  split <;> rfl

theorem Work.scanAbsent_placing : w.scanAbsent.placing = w.placing := by
  unfold Work.scanAbsent
  generalize allPockets = l
  exact foldl_view State.placing _ (fun w p => by
    split
    · exact w.setLinkState_placing p _ _
    · rfl) l w

theorem Work.scanMark_placing : w.scanMark.placing = w.placing := by
  have read := w.readWord_placing markWord .scan true
  have wrote (v : Work) (m : OutageMark) : (v.writeMark m).placing = v.placing :=
    Work.wrote_placing { v with store := { v.store with mark := m } } markWord
  unfold Work.scanMark
  dsimp only
  split
  · exact read
  · exact (wrote _ _).trans read

theorem State.mirror_of_placing {s t : State} (h : t.placing = s.placing) :
    t.ctl.mirror = s.ctl.mirror ∧ t.ctl.format = s.ctl.format ∧ t.ctl.quarantine = s.ctl.quarantine := by
  obtain ⟨-, quarantine, mirror, format⟩ : _ ∧ _ ∧ _ ∧ _ := by simpa [State.placing] using h
  exact ⟨mirror, format, quarantine⟩

theorem Work.scanMap_entries : w.scanMap.ctl.format = w.ctl.format ∧ w.scanMap.ctl.quarantine = w.ctl.quarantine ∧
    ∀ p : Pocket, w.scanMap.count ≤ p.val → (w.scanMap.ctl.mirror[p]).valid = false := by
  obtain ⟨-, format, quarantine⟩ := State.mirror_of_placing (w.scanAbsent.scanMark_placing.trans w.scanAbsent_placing)
  obtain ⟨format', quarantine', past⟩ := Work.scanMapWords_entries (v := w.scanMap) rfl
  exact ⟨format'.trans format, quarantine'.trans quarantine, past⟩

theorem Work.scanFrames_entries : w.scanFrames.ctl.format = w.ctl.format ∧
    (∀ p : Pocket, w.scanFrames.count ≤ p.val → (w.scanFrames.ctl.mirror[p]).valid = false) ∧
    (w.ctl.quarantine = 0 → ∀ f ∈ w.scanFrames.frameNumbers, w.scanFrames.poolAgrees f) := by
  obtain ⟨format, quarantine, past⟩ := w.scanMap_entries
  obtain ⟨mirror, format', agrees⟩ := Work.scanFrames_places (v := w.scanFrames) rfl
  refine ⟨format'.trans format, fun p low => ?_, fun none => ?_⟩
  · rw [mirror]
    refine past p ?_
    unfold State.count at low ⊢
    rw [← format']
    exact low
  · unfold State.frameNumbers State.geometry at agrees ⊢
    rw [format']
    refine agrees fun f => ?_
    unfold State.quarantined
    rw [quarantine, none]
    exact BitVec.getLsbD_zero

theorem Work.scanResolved_entries : w.scanResolved.ctl.format = w.ctl.format ∧ w.scanResolved.mapHolds ∧
    (w.ctl.quarantine = 0 → ∀ f ∈ w.scanResolved.frameNumbers, w.scanResolved.poolAgrees f) := by
  obtain ⟨format, past, agrees⟩ := w.scanFrames_entries
  obtain ⟨format', quarantine, frame, holds⟩ := Work.resolves_entries (v := w.scanResolved) rfl past
  refine ⟨format'.trans format, holds, fun none f hf => ?_⟩
  have placed := agrees none f (by unfold State.frameNumbers State.geometry at hf ⊢; rw [← format']; exact hf)
  unfold State.poolAgrees State.quarantined at placed ⊢
  rw [quarantine, frame]
  exact placed

/-- After the scan the map names LIVE frames of its pockets and generations, and the pools agree with the headers. -/
theorem Work.scanSettled_places : w.scanSettled.ctl.format = w.ctl.format ∧ w.scanSettled.mapHolds ∧
    (w.ctl.quarantine = 0 → ∀ f ∈ w.scanSettled.frameNumbers, w.scanSettled.poolAgrees f ∧
      ((w.scanSettled.store.frame f).header.state = .live → ∃ p, w.scanSettled.isRecordFrame p f)) := by
  obtain ⟨format, holds, agrees⟩ := w.scanResolved_entries
  obtain ⟨format', settled, places⟩ := Work.settleOrphans_places (v := w.scanSettled) rfl holds
  refine ⟨format'.trans format, settled, fun none f hf => places (agrees none) f ?_⟩
  unfold State.frameNumbers State.geometry at hf ⊢
  rw [← format']
  exact hf

end

/-! ### Every frame has one place (R46) -/

/-- The free list of a scan holds the frames that are free and in no quarantine. -/
def State.freeListed (s : State) : Prop :=
  s.ctl.free = s.frameNumbers.filter fun f => (s.store.frame f).header.state == .free && !s.quarantined f

/-- Once the pools agree with the headers and every LIVE frame is named by the map, every frame has one place. -/
theorem State.framesPlaced_of {s : State} (holds : s.mapHolds) (free : s.freeListed) (places : ∀ f ∈ s.frameNumbers, s.poolAgrees f ∧
    ((s.store.frame f).header.state = .live → ∃ p, s.isRecordFrame p f)) : s.framesPlaced := by
  intro f hf
  have numbered : f ∈ s.frameNumbers := List.mem_range.2 hf
  obtain ⟨agrees, named⟩ := places f numbered
  have listed : f ∈ s.ctl.free ↔ (s.store.frame f).header.state = .free ∧ s.quarantined f = false := by
    rw [free]
    simp [numbered]
  have live (p : Pocket) (record : s.isRecordFrame p f) : (s.store.frame f).header.state = .live ∧ (s.store.frame f).header.pocket = p.val := by
    obtain ⟨valid, rfl⟩ := record
    have candidate := ((holds p valid).2 valid).1
    simp only [State.candidate, Bool.and_eq_true, beq_iff_eq] at candidate
    exact candidate.1
  cases state : (s.store.frame f).header.state with
  | free =>
    have out : s.quarantined f = false := Bool.eq_false_iff.2 fun q => FrameState.noConfusion (state.symm.trans (agrees.1 q))
    exact .inl ⟨listed.2 ⟨state, out⟩, out, fun p record => FrameState.noConfusion (state.symm.trans (live p record).1)⟩
  | quarantined =>
    exact .inr (.inl ⟨fun h => FrameState.noConfusion (state.symm.trans (listed.1 h).1), agrees.2 state,
      fun p record => FrameState.noConfusion (state.symm.trans (live p record).1)⟩)
  | live =>
    have out : s.quarantined f = false := Bool.eq_false_iff.2 fun q => FrameState.noConfusion (state.symm.trans (agrees.1 q))
    obtain ⟨p, record⟩ := named state
    refine .inr (.inr ⟨fun h => FrameState.noConfusion (state.symm.trans (listed.1 h).1), out, p, record, fun q other => ?_⟩)
    exact Fin.ext ((live q other).2.symm.trans (live p record).2)

/-- What the places depend on. -/
theorem State.mapHolds_of {s t : State} (frame : t.store.frame = s.store.frame) (format : t.ctl.format = s.ctl.format)
    (mirror : t.ctl.mirror = s.ctl.mirror) (h : s.mapHolds) : t.mapHolds := by
  intro p valid
  rw [mirror] at valid
  obtain ⟨low, holds⟩ := h p valid
  exact ⟨by unfold State.count; rw [format]; exact low, State.entryHolds_of frame format (by rw [mirror]) holds⟩

theorem Work.scanBody_mapHolds (w : Work) : w.scanBody.mapHolds := by
  obtain ⟨-, holds, -⟩ := w.scanSettled_places
  rw [Work.scanBody_eq]
  generalize w.scanSettled = v at holds ⊢
  exact State.mapHolds_of (s := v.toState) rfl rfl rfl holds

theorem Work.scanBody_framesPlaced {w : Work} (h : w.ctl.quarantine = 0) : w.scanBody.framesPlaced := by
  obtain ⟨-, holds, places⟩ := w.scanSettled_places
  have placed := places h
  rw [Work.scanBody_eq]
  generalize w.scanSettled = v at holds placed ⊢
  exact State.framesPlaced_of (State.mapHolds_of (s := v.toState) rfl rfl rfl holds) rfl placed

/-- Entering PLAN leaves the store, and of the store's state all but the queue. -/
theorem State.framesPlaced_of_ctl {s t : State} (ctl : { t.ctl with queue := [] } = { s.ctl with queue := [] }) (h : s.framesPlaced) :
    t.framesPlaced := by
  have format : t.ctl.format = s.ctl.format := (congrArg (·.format) ctl :)
  have free : t.ctl.free = s.ctl.free := (congrArg (·.free) ctl :)
  have quarantine : t.ctl.quarantine = s.ctl.quarantine := (congrArg (·.quarantine) ctl :)
  have mirror : t.ctl.mirror = s.ctl.mirror := (congrArg (·.mirror) ctl :)
  unfold State.framesPlaced State.isRecordFrame State.quarantined State.geometry at h ⊢
  rw [format, free, quarantine, mirror]
  exact h

/-! ### The scan command -/

theorem Work.startScan_part (w : Work) (h : w.part = .start) : w.startScan.part ≠ .active := by
  unfold Work.startScan
  dsimp only
  split
  · split
    · rw [State.part_of_offBringUp (Work.enterPlan_offBringUp _ _)]
      exact PartState.noConfusion
    · rw [Work.scanBody_part, Work.scanHeader_part, h]
      exact PartState.noConfusion
  · rw [Work.broadcastSafe_part]
    exact PartState.noConfusion

theorem exec_startScanEnd {s : State} (found : Findings) (hp : s.powered = true) (ha : s.part = .start) (hs : s.ctl.scanning = true) :
    exec (.startScanEnd found) s = .next ((Work.begin s).meet found).startScan.toState := by
  have e : exec (.startScanEnd found) s = execStartScanEnd found s := rfl
  rw [e, execStartScanEnd, powered_on hp, if_pos ⟨ha, hs⟩, Work.finish_outside_active _ (Work.startScan_part _ ha)]

theorem Work.enterPlan_ctl (w : Work) : { (w.enterPlan false).ctl with queue := [] } = { w.ctl with queue := [] } :=
  State.ctl_of_offBringUp (w.enterPlan_offBringUp false)

/-- A scan that accepts the header leaves what its body has settled. -/
theorem Work.startScan_accepted {w : Work} (h : w.startScan.part ≠ .commission) :
    w.startScan.store = w.scanHeader.scanBody.store ∧ { w.startScan.ctl with queue := [] } = { w.scanHeader.scanBody.ctl with queue := [] } := by
  unfold Work.startScan at h ⊢
  dsimp only at h ⊢
  split at h
  · next good =>
    rw [if_pos good]
    split
    · exact ⟨Work.enterPlan_store _ _, Work.enterPlan_ctl _⟩
    · exact ⟨rfl, rfl⟩
  · rw [Work.broadcastSafe_part] at h
    exact absurd rfl h

theorem Work.scanHeader_quarantine (w : Work) : w.scanHeader.ctl.quarantine = w.ctl.quarantine := by
  have read := (State.mirror_of_placing (Work.readWords_placing w (fun _ (n : Nat) => n) .scan true (List.range 13))).2.2
  unfold Work.scanHeader
  dsimp only
  exact read

/-- Settles O33. -/
theorem afterTheScanMapAndPoolsAgree : Obligations.AfterTheScanMapAndPoolsAgree := by
  unfold Obligations.AfterTheScanMapAndPoolsAgree
  have accepted {found : Findings} {s t : State} (hp : s.powered = true) (ha : s.part = .start) (hs : s.ctl.scanning = true)
      (e : exec (.startScanEnd found) s = .next t) (hc : t.part ≠ .commission) : ∃ v : Work, v.ctl.quarantine = s.ctl.quarantine ∧
      t.store = v.scanBody.store ∧ { t.ctl with queue := [] } = { v.scanBody.ctl with queue := [] } := by
    have ended : (((Work.begin s).meet found).startScan).toState = t := Host.Outcome.next.inj ((exec_startScanEnd found hp ha hs).symm.trans e)
    have scan := Work.startScan_accepted (w := (Work.begin s).meet found) (by rw [ended]; exact hc)
    rw [ended] at scan
    exact ⟨_, Work.scanHeader_quarantine _, scan⟩
  refine ⟨fun found s t hp ha hs e hc p valid => ?_, fun found s t hp ha hs none e hc => ?_⟩
  · obtain ⟨v, -, store, ctl⟩ := accepted hp ha hs e hc
    have settled := v.scanBody_mapHolds
    generalize v.scanBody.toState = u at store ctl settled
    have holds : t.mapHolds := State.mapHolds_of (congrArg Store.frame store) (congrArg (·.format) ctl :) (congrArg (·.mirror) ctl :) settled
    obtain ⟨low, entry⟩ := holds p valid
    obtain ⟨candidate, gen⟩ := entry valid
    simp only [State.candidate, Bool.and_eq_true, beq_iff_eq, decide_eq_true_eq] at candidate
    obtain ⟨⟨live, pocket⟩, range⟩ := candidate
    exact ⟨low, range, live, pocket, gen⟩
  · obtain ⟨v, quarantine, -, ctl⟩ := accepted hp ha hs e hc
    exact State.framesPlaced_of_ctl ctl (Work.scanBody_framesPlaced (quarantine.trans none))

end Sys2Proof.Machine
end
section
/-! SUPPORT. The START scan's judgement of the header area (R51, R190), and the link that it brings up (R110). -/

namespace Sys2Proof.Machine

/-! ### What the body of the scan leaves -/

/-- The state without what the body of the scan changes: the store with the words' condition, the pools and the map, the pockets'
link records, the events, the copy of the mark and the planner's images. -/
def State.offScan (s : State) : State :=
  { s.offWords with
    link := { s.link with pockets := Vector.replicate 32 PocketLink.reset }
    sup := { s.sup with mark := ⟨false, 0, 0⟩ }
    plan := { s.plan with images := Vector.replicate 32 none }
    ctl := { s.offWords.ctl with scanDone := false } }

theorem State.offScan_of_offWords {s t : State} (h : t.offWords = s.offWords) : t.offScan = s.offScan :=
  (congrArg (fun s : State => { s with
    link := { s.link with pockets := Vector.replicate 32 PocketLink.reset }
    sup := { s.sup with mark := ⟨false, 0, 0⟩ }
    plan := { s.plan with images := Vector.replicate 32 none }
    ctl := { s.ctl with scanDone := false } }) h :)

section
variable (w : Work)

theorem Work.setLinkState_offScan (p : Pocket) (x : LinkState) (c : Option FaultCause) : (w.setLinkState p x c).offScan = w.offScan := by
  unfold Work.setLinkState
  split <;> rfl

theorem Work.scanMark_offScan : w.scanMark.offScan = w.offScan := by
  have marked (v : Work) (m : OutageMark) : State.offScan { v with sup := { v.sup with mark := m } } = v.offScan := rfl
  have read := State.offScan_of_offWords (w.readWord_offWords markWord .scan true)
  unfold Work.scanMark
  dsimp only
  rw [marked]
  split
  · exact read
  · exact (State.offScan_of_offWords (Work.writeMark_offWords _ _)).trans read

theorem Work.scanSettled_offScan : w.scanSettled.offScan = w.offScan := by
  have absent : w.scanAbsent.offScan = w.offScan := by
    unfold Work.scanAbsent
    generalize allPockets = l
    exact foldl_view State.offScan _ (fun w p => by
      split
      · exact w.setLinkState_offScan p _ _
      · rfl) l w
  have map : w.scanMap.offScan = w.scanAbsent.scanMark.offScan := by
    unfold Work.scanMap
    generalize allPockets = l
    exact foldl_view State.offScan _ (fun w p => State.offScan_of_offWords (w.scanMapWord_offWords p)) l _
  have frames : w.scanFrames.offScan = w.scanMap.offScan :=
    foldl_view State.offScan _ (fun w f => State.offScan_of_offWords (w.scanFrame_offWords _ f)) _ _
  have resolved : w.scanResolved.offScan = w.scanFrames.offScan :=
    foldl_view State.offScan _ (fun w p => State.offScan_of_offWords (w.resolve_offWords p _)) _ _
  have settled : w.scanSettled.offScan = w.scanResolved.offScan :=
    foldl_view State.offScan _ (fun w f => State.offScan_of_offWords (w.settleOrphan_offWords f)) _ _
  exact settled.trans (resolved.trans (frames.trans (map.trans (w.scanAbsent.scanMark_offScan.trans absent))))

theorem Work.scanBody_offScan : w.scanBody.offScan = w.offScan := by
  have settled := w.scanSettled_offScan
  rw [Work.scanBody_eq]
  generalize w.scanSettled = v at settled ⊢
  exact settled

end

/-! ### The header area (R51, R190) -/

/-- Reading words changes no more of the store than their conditions. -/
theorem Work.readWord_contents (w : Work) (n : Nat) (src : LatchSource) (b : Bool) :
    { (w.readWord n src b).store with flaws := [] } = { w.store with flaws := [] } := by
  have flaws (s : Store) (k : Nat) : { s.setFlaw k none with flaws := [] } = { s with flaws := [] } := by
    unfold Store.setFlaw
    split <;> rfl
  have offered : (w.countCorrectable.offer n .correctable src).store = w.store := Work.offer_store _ _ _ _
  unfold Work.readWord
  split
  · rfl
  · dsimp only
    split
    · exact (flaws _ n).trans (congrArg (fun s : Store => { s with flaws := [] }) offered)
    · rw [offered]
  · rw [Work.offer_store]

/-- The header words read. -/
def Work.headerRead (w : Work) : Work := (List.range 13).foldl (fun w n => w.readWord n .scan true) w

theorem Work.headerRead_contents (w : Work) : { w.headerRead.store with flaws := [] } = { w.store with flaws := [] } := by
  unfold Work.headerRead
  generalize List.range 13 = l
  exact foldl_view (fun s : State => { s.store with flaws := [] }) _ (fun w n => w.readWord_contents n .scan true) l w

theorem Work.headerRead_offWords (w : Work) : w.headerRead.offWords = w.offWords := by
  unfold Work.headerRead
  generalize List.range 13 = l
  exact foldl_offWords _ (fun w n => w.readWord_offWords n .scan true) l w

theorem Work.scanHeader_eq (w : Work) : w.scanHeader = { w.headerRead with
    ctl := { w.headerRead.ctl with
      format := if w.formatFails then ⟨false, .standard, 0⟩ else w.headerRead.store.format
      settings := w.scannedSettings, loaded := w.scannedSettings, formatBad := w.formatFails
      wordBad := Vector.ofFn fun k => k.val != 0 && !w.readable k.val
      itemBad := Vector.ofFn fun i =>
        itemExists i.val && w.readable (itemWord i.val) && !itemInRange i.val (w.scannedSettings.item i.val)
      scanning := false }
    arb := { w.headerRead.arb with mask := BitVec.ofNat 32 (w.scannedSettings.item 31) } } := by
  unfold Work.scanHeader Work.headerRead
  generalize List.range 13 = l
  rfl

theorem itemWord_le (i : Nat) : 1 ≤ itemWord i ∧ itemWord i ≤ 12 := by
  unfold itemWord
  repeat' split
  all_goals omega

theorem State.scannedSettings_of_readable {s : State} (h : ∀ k, k ≤ 12 → s.readable k = true) : s.scannedSettings = s.store.settings := by
  unfold State.scannedSettings
  ext i hi
  simp [h _ (itemWord_le i).2]

theorem contains_true_eq_false {n : Nat} {f : Fin n → Bool} : (Vector.ofFn f).contains true = false ↔ ∀ i, f i = false := by
  refine ⟨fun h i => Bool.eq_false_iff.2 fun hi => Bool.eq_false_iff.1 h (Vector.contains_iff_mem.2 (Vector.mem_ofFn.2 ⟨i, hi⟩)), fun h => ?_⟩
  refine Bool.eq_false_iff.2 fun held => ?_
  obtain ⟨i, hi⟩ := Vector.mem_ofFn.1 (Vector.contains_iff_mem.1 held)
  exact Bool.noConfusion ((h i).symm.trans hi)

theorem State.readable_iff {s : State} {k : Nat} : s.readable k = true ↔ s.store.flaw k ≠ some .uncorrectable := by
  simp [State.readable, Store.readable]

theorem Work.headerGood_eq (w : Work) : w.scanHeader.ctl.headerGood = true ↔ w.formatFails = false ∧
    (∀ k : Fin 13, (k.val != 0 && !w.readable k.val) = false) ∧
    ∀ i : Fin 96, (itemExists i.val && w.readable (itemWord i.val) && !itemInRange i.val (w.scannedSettings.item i.val)) = false := by
  rw [Work.scanHeader_eq]
  unfold StoreCtl.headerGood
  dsimp only
  rw [Bool.and_eq_true, Bool.and_eq_true, Bool.not_eq_true', Bool.not_eq_true', Bool.not_eq_true', contains_true_eq_false, contains_true_eq_false,
    and_assoc]

/-- R190: every item is GOOD exactly when the header area is sound. -/
theorem Work.headerGood_iff (w : Work) : w.scanHeader.ctl.headerGood = true ↔ w.headerSound := by
  rw [Work.headerGood_eq]
  have range (i : Nat) (settings : Settings) : itemInRange i (settings.item i) = true ↔ itemLow i ≤ settings.item i ∧ settings.item i ≤ itemHigh i := by
    simp [itemInRange]
  refine ⟨fun ⟨format, words, items⟩ => ?_, fun ⟨reads, valid, agrees, items⟩ => ?_⟩
  · simp only [State.formatFails, Bool.or_eq_false_iff, Bool.not_eq_false'] at format
    obtain ⟨⟨first, valid⟩, agrees⟩ := format
    have reads (k : Nat) (hk : k ≤ 12) : w.readable k = true := by
      by_cases e : k = 0
      · exact e ▸ first
      · have word := words ⟨k, by omega⟩
        simpa [e] using word
    refine ⟨fun k hk => State.readable_iff.1 (reads k hk), valid, agrees, fun i low high => ?_⟩
    have item := items ⟨i, by omega⟩
    rw [State.scannedSettings_of_readable reads] at item
    have inRange : itemInRange i (w.store.settings.item i) = true := by
      simpa [itemExists, low, high, reads _ (itemWord_le i).2] using item
    exact (range i _).1 inRange
  · have reads (k : Nat) (hk : k ≤ 12) : w.readable k = true := State.readable_iff.2 (reads k hk)
    refine ⟨by simp [State.formatFails, reads, valid, agrees], fun k => ?_, fun i => ?_⟩
    · simp [reads k.val (by omega)]
    · rw [State.scannedSettings_of_readable reads]
      by_cases exists' : itemExists i.val = true
      · have bounds : 1 ≤ i.val ∧ i.val ≤ 95 := by simpa [itemExists] using exists'
        simp [(range i.val _).2 (items i.val bounds.1 bounds.2)]
      · simp [exists']

/-! ### The link that is brought up (R110) -/

/-- A broadcast SAFE that finds the link free is on the wire. -/
theorem Work.broadcastSafe_inFlight {w : Work} (h : w.inFlight = none) :
    w.broadcastSafe.inFlight = some { Entry.fresh none .safe with state := .inFlight } := by
  unfold State.inFlight
  rw [(Work.broadcastSafe_free h).1]
  rfl

theorem Work.setLinkState_queue (w : Work) (p : Pocket) (x : LinkState) (c : Option FaultCause) : (w.setLinkState p x c).link.queue = w.link.queue := by
  unfold Work.setLinkState
  split <;> rfl

theorem Work.bringUp_inFlight {w : Work} (h : w.inFlight = none) : w.bringUp.inFlight = some { Entry.fresh none .safe with state := .inFlight } := by
  have empty : (w.link.queue.filter fun e => e.state == .inFlight) = [] := by
    refine List.filter_eq_nil_iff.2 fun e he flying => ?_
    have out := List.find?_eq_none.1 h e he
    exact out flying
  unfold Work.bringUp
  dsimp only
  refine Work.broadcastSafe_inFlight ?_
  unfold State.inFlight
  generalize allPockets = l
  rw [foldl_view (fun s : State => s.link.queue)]
  · exact congrArg (List.find? fun e : Entry => e.state == .inFlight) empty
  · intro v p
    have state := v.setLinkState_queue p .unknown none
    split
    · exact state
    · rfl

/-- A POLL that joins goes behind the entry on the wire. -/
theorem Work.postPoll_inFlight {w : Work} {e : Entry} (h : w.inFlight = some e) (p : Pocket) : (w.postPoll p).inFlight = some e := by
  rw [Work.postPoll_eq]
  unfold State.inFlight Work.setQueue at *
  dsimp only
  rw [List.find?_append, h]
  rfl

theorem Work.enterPlan_inFlight {w : Work} (h : w.inFlight = none) :
    (w.enterPlan false).inFlight = some { Entry.fresh none .safe with state := .inFlight } := by
  have up : (w.enter .plan).bringUp.inFlight = some { Entry.fresh none .safe with state := .inFlight } := Work.bringUp_inFlight h
  unfold Work.enterPlan Work.openWindow
  dsimp only
  generalize (w.enter .plan).bringUp = v at up ⊢
  rw [if_neg Bool.false_ne_true]
  exact Work.postPoll_inFlight (by exact up) 0

/-! ### The obligation -/

/-- What the header words read leave besides. -/
theorem Work.scanHeader_stands (w : Work) : w.scanHeader.ctxs = w.ctxs ∧ w.scanHeader.backup = w.backup ∧ w.scanHeader.port = w.port ∧
    w.scanHeader.sup = w.sup ∧ w.scanHeader.part = w.part ∧ w.scanHeader.link = w.link ∧
    w.scanHeader.ctl.scanning = false ∧ w.scanHeader.ctl.settings = w.scannedSettings ∧ w.scanHeader.ctl.loaded = w.scannedSettings ∧
    w.scanHeader.ctl.format = (if w.formatFails then ⟨false, .standard, 0⟩ else w.store.format) ∧
    w.scanHeader.arb.mask = BitVec.ofNat 32 (w.scannedSettings.item 31) ∧
    { w.scanHeader.store with flaws := [] } = { w.store with flaws := [] } := by
  have view := w.headerRead_offWords
  have contents := w.headerRead_contents
  rw [Work.scanHeader_eq]
  generalize w.headerRead = v at view contents ⊢
  have format : v.store.format = w.store.format := (congrArg Store.format contents :)
  refine ⟨(congrArg State.ctxs view :), (congrArg State.backup view :), (congrArg State.port view :), (congrArg State.sup view :),
    (congrArg State.part view :), (congrArg State.link view :), rfl, rfl, rfl, ?_, rfl, contents⟩
  rw [← format]

/-- What the body of the scan leaves of the header's copies and of the other units. -/
theorem Work.scanBody_stands (w : Work) : w.scanBody.ctxs = w.ctxs ∧ w.scanBody.backup = w.backup ∧ w.scanBody.port = w.port ∧
    w.scanBody.sup.settled = w.sup.settled ∧ w.scanBody.part = w.part ∧ w.scanBody.link.queue = w.link.queue ∧ w.scanBody.arb = w.arb ∧
    w.scanBody.ctl.scanning = w.ctl.scanning ∧ w.scanBody.ctl.settings = w.ctl.settings ∧ w.scanBody.ctl.loaded = w.ctl.loaded ∧
    w.scanBody.ctl.format = w.ctl.format ∧ w.scanBody.ctl.headerGood = w.ctl.headerGood ∧ w.scanBody.ctl.scanDone = true := by
  have view := w.scanBody_offScan
  have done : w.scanBody.ctl.scanDone = true := by rw [Work.scanBody_eq]
  generalize w.scanBody = v at view done ⊢
  refine ⟨(congrArg State.ctxs view :), (congrArg State.backup view :), (congrArg State.port view :), (congrArg (fun s : State => s.sup.settled) view :),
    (congrArg State.part view :), (congrArg (fun s : State => s.link.queue) view :), (congrArg State.arb view :),
    (congrArg (fun s : State => s.ctl.scanning) view :), (congrArg (fun s : State => s.ctl.settings) view :),
    (congrArg (fun s : State => s.ctl.loaded) view :), (congrArg (fun s : State => s.ctl.format) view :),
    (congrArg (fun s : State => s.ctl.headerGood) view :), done⟩

/-- An accepted header area is loaded, and the part enters PLAN when mains is settled. -/
def State.HeaderLoaded (s t : State) : Prop :=
  t.ctxs = s.ctxs ∧ t.backup = s.backup ∧ t.port = s.port ∧ t.ctl.scanning = false ∧ t.ctl.scanDone = true ∧
  t.ctl.format = s.store.format ∧ t.ctl.loaded = s.store.settings ∧ t.ctl.settings = s.store.settings ∧
  t.ctl.headerGood = true ∧ t.arb.mask = BitVec.ofNat 32 (s.store.settings.item 31)

theorem Work.scanBody_loaded {w : Work} (sound : w.headerSound) : State.HeaderLoaded w.toState w.scanHeader.scanBody.toState := by
  obtain ⟨reads, valid, agrees, -⟩ := id sound
  have copies : w.scannedSettings = w.store.settings := State.scannedSettings_of_readable fun k hk => State.readable_iff.2 (reads k hk)
  have accepted : w.formatFails = false := by
    simp [State.formatFails, State.readable_iff.2 (reads 0 (Nat.zero_le _)), valid, agrees]
  have good := w.headerGood_iff.2 sound
  obtain ⟨ctxs, backup, port, -, -, -, scanning, settings, loaded, format, mask, -⟩ := w.scanHeader_stands
  obtain ⟨ctxs', backup', port', -, -, -, arb', scanning', settings', loaded', format', good', done⟩ := w.scanHeader.scanBody_stands
  rw [copies] at settings loaded mask
  rw [accepted, if_neg Bool.false_ne_true] at format
  exact ⟨ctxs'.trans ctxs, backup'.trans backup, port'.trans port, scanning'.trans scanning, done, format'.trans format, loaded'.trans loaded,
    settings'.trans settings, good'.trans good, (congrArg (·.mask) arb').trans mask⟩

theorem State.HeaderLoaded.enterPlan {s : State} {w : Work} (h : s.HeaderLoaded w.toState) : s.HeaderLoaded (w.enterPlan false).toState := by
  have view := w.enterPlan_offBringUp false
  have ctl := w.enterPlan_ctl
  have ctxs' : (w.enterPlan false).ctxs = w.ctxs := (State.ctxs_of_offBringUp view :)
  have backup' : (w.enterPlan false).backup = w.backup := (State.backup_of_offBringUp view :)
  have port' : (w.enterPlan false).port = w.port := (State.port_of_offBringUp view :)
  have arb' : (w.enterPlan false).arb = w.arb := (State.arb_of_offBringUp view :)
  clear view
  generalize w.enterPlan false = v at ctl ctxs' backup' port' arb' ⊢
  obtain ⟨ctxs, backup, port, scanning, done, format, loaded, settings, good, mask⟩ := h
  exact ⟨ctxs'.trans ctxs, backup'.trans backup, port'.trans port,
    (congrArg (·.scanning) ctl :).trans scanning, (congrArg (·.scanDone) ctl :).trans done, (congrArg (·.format) ctl :).trans format,
    (congrArg (·.loaded) ctl :).trans loaded, (congrArg (·.settings) ctl :).trans settings, (congrArg (·.headerGood) ctl :).trans good,
    (congrArg (·.mask) arb').trans mask⟩

/-- Settles O32. -/
theorem startScanJudgesTheHeader : Obligations.StartScanJudgesTheHeader := by
  unfold Obligations.StartScanJudgesTheHeader
  intro s hp ha hs
  have scan := exec_startScanEnd noFailures hp ha hs
  rw [Work.meet_clean] at scan
  refine ⟨fun sound => ⟨_, scan, ?_⟩, fun unsound => ⟨_, scan, ?_⟩⟩
  · have load := Work.scanBody_loaded (w := Work.begin s) sound
    have good := (Work.begin s).headerGood_iff.2 sound
    obtain ⟨-, -, -, settled', part', queue', -⟩ := (Work.begin s).scanHeader.scanBody_stands
    obtain ⟨-, -, -, sup, part, link, -⟩ := (Work.begin s).scanHeader_stands
    have queue : (Work.begin s).scanHeader.scanBody.link.queue = s.link.queue := queue'.trans (congrArg LinkCtl.queue link)
    have settled : (Work.begin s).scanHeader.scanBody.sup.settled = s.sup.settled := settled'.trans (congrArg (·.settled) sup)
    have starts : (Work.begin s).scanHeader.scanBody.part = .start := part'.trans (part.trans ha)
    unfold Work.startScan
    dsimp only
    rw [if_pos good]
    generalize (Work.begin s).scanHeader.scanBody = v at load queue settled starts ⊢
    rw [← settled]
    split
    · next ready =>
      have view := v.enterPlan_offBringUp false
      obtain ⟨ctxs, backup, port, scanning, done, format, loaded, settings, copies, mask⟩ := load.enterPlan
      refine ⟨ctxs, backup, port, State.part_of_offBringUp view, scanning, done, format, loaded, settings, copies, mask, fun _ => ?_, fun _ free => ?_⟩
      · rw [State.plan_of_offBringUp view]
        rfl
      · refine Work.enterPlan_inFlight ?_
        unfold State.inFlight
        rw [queue]
        exact free
    · next unready =>
      obtain ⟨ctxs, backup, port, scanning, done, format, loaded, settings, copies, mask⟩ := load
      exact ⟨ctxs, backup, port, starts, scanning, done, format, loaded, settings, copies, mask, fun h => absurd h unready, fun h => absurd h unready⟩
  · have bad : ¬ (Work.begin s).scanHeader.ctl.headerGood = true := fun good => unsound ((Work.begin s).headerGood_iff.1 good)
    obtain ⟨ctxs, backup, port, sup, -, link, scanning, -, -, -, -, contents⟩ := (Work.begin s).scanHeader_stands
    unfold Work.startScan
    dsimp only
    rw [if_neg bad]
    generalize (Work.begin s).scanHeader = v at bad ctxs backup port sup link scanning contents ⊢
    have view := (v.enter .commission).broadcastSafe_offBringUp
    have ctl : (v.enter .commission).broadcastSafe.ctl = v.ctl := Work.broadcastSafe_ctl _
    have store : (v.enter .commission).broadcastSafe.store = v.store := Work.broadcastSafe_store _
    refine ⟨(State.ctxs_of_offBringUp view).trans ctxs, (State.backup_of_offBringUp view).trans backup, (State.port_of_offBringUp view).trans port,
      (State.sup_of_offBringUp view).trans sup, Work.broadcastSafe_part _, ?_, ?_, State.stateChange_of_offBringUp view, ?_, ?_, ?_, fun free => ?_⟩
    · rw [ctl]
      exact scanning
    · rw [ctl]
      exact Bool.eq_false_of_not_eq_true bad
    · rw [store]
      exact (congrArg Store.frames contents :)
    · rw [store]
      exact (congrArg Store.map contents :)
    · rw [store]
      exact (congrArg Store.mark contents :)
    · refine Work.broadcastSafe_inFlight ?_
      have queue : (v.enter .commission).link = s.link := link
      unfold State.inFlight
      rw [queue]
      exact free

end Sys2Proof.Machine
end
section
/-! SUPPORT. The first polls, and the beginning of planning (R155 to R159, R171). -/

namespace Sys2Proof.Machine

/-! ### The windows (R156) -/

theorem exec_firstPollWindowEnd {s : State} {p : Pocket} {x : PollWindow} (hp : s.powered = true) (ha : s.part = .plan)
    (hw : s.plan.window = some x) (hx : x.pocket = p) : exec (.firstPollWindowEnd p) s = .next (Work.begin s).endWindow.finish := by
  have e : exec (.firstPollWindowEnd p) s = execFirstPollWindowEnd p s := rfl
  have mine : ((Work.begin s).openWindowOf p).isSome = true := by
    unfold State.openWindowOf
    rw [if_pos (by exact ha)]
    simp [hw, hx]
  rw [e, execFirstPollWindowEnd, powered_on hp, if_pos mine]

theorem exec_firstPollRepoll {s : State} {p : Pocket} {x : PollWindow} (hp : s.powered = true) (ha : s.part = .plan)
    (hw : s.plan.window = some x) (hx : x.pocket = p) : exec (.firstPollRepoll p) s = .next (Work.finish
      (if s.link.queue.any (Entry.isFor · p) then Work.begin s
      else Work.postPoll { Work.begin s with plan := { s.plan with window := some { x with repollMs := none } } } p)) := by
  have e : exec (.firstPollRepoll p) s = execFirstPollRepoll p s := rfl
  have mine : (Work.begin s).openWindowOf p = some x := by
    unfold State.openWindowOf
    rw [if_pos (by exact ha)]
    simp [hw, hx]
  rw [e, execFirstPollRepoll, powered_on hp]
  refine congrArg (fun w : Work => Host.Outcome.next w.finish) ?_
  rw [mine]
  rfl

theorem Work.endWindow_next {w : Work} {x : PollWindow} {q : Pocket} (hw : w.plan.window = some x) (hq : q.val = x.pocket.val + 1)
    (low : q.val < w.count) : w.endWindow = w.openWindow q := by
  unfold Work.endWindow
  rw [hw]
  dsimp only
  rw [dif_pos (by omega)]
  exact congrArg w.openWindow (Fin.ext hq.symm)

theorem Work.endWindow_last {w : Work} {x : PollWindow} (hw : w.plan.window = some x) (last : w.count ≤ x.pocket.val + 1) :
    w.endWindow = w.beginPlanning := by
  unfold Work.endWindow
  rw [hw]
  dsimp only
  rw [dif_neg (by omega)]

/-! ### Planning begins (R155, R157, R159) -/

/-- The work in which planning begins. -/
def State.plans (s : State) : Work := Work.begin s.planningBegun

theorem Work.beginPlanning_eq (s : State) : (Work.begin s).beginPlanning = s.plans.planOn := rfl

theorem State.pockets_head {s : State} (h : 0 < s.count) : ∃ l, s.pockets = 0 :: l := by
  unfold State.pockets allPockets
  rw [List.finRange_succ, List.filter_cons, if_pos (by simpa using h)]
  exact ⟨_, rfl⟩

/-- While the frame of the first record is still to be read nothing is taken up. -/
theorem Work.planOn_waits {w : Work} (step : w.plan.step = .planning) (next : w.plan.next = 0) (h : 0 < w.count)
    (stands : w.opStands (·.isPlannerReadOf 0) = true) : w.planOn = w := by
  obtain ⟨l, pockets⟩ := State.pockets_head (s := w.toState) h
  have ready : (w.pockets.drop w.plan.next).takeWhile (fun p => !w.opStands (·.isPlannerReadOf p)) = [] := by
    rw [next, List.drop_zero, pockets, List.takeWhile_cons, if_neg (by simp [stands])]
  have records : w.planRecords = w := by
    unfold Work.planRecords
    rw [if_pos step, ready]
    have low : w.plan.next + ([] : List Pocket).length < w.pockets.length := by
      rw [next, pockets]
      exact Nat.succ_pos _
    exact congrArg (fun x : Planner => { w with plan := x }) (if_pos low)
  unfold Work.planOn
  rw [records]
  exact if_neg (by simp [step])

/-- A record taken up changes no more than contexts. -/
theorem Work.takeUp_ctxs (w : Work) (p : Pocket) : w.takeUp p = { w with ctxs := (w.takeUp p).ctxs } := by
  unfold Work.takeUp
  split
  · rfl
  · dsimp only
    split <;> rfl

theorem Work.takeUps_ctxs : ∀ (l : List Pocket) (w : Work), l.foldl (fun w p => w.takeUp p) w =
    { w with ctxs := (l.foldl (fun w p => w.takeUp p) w).ctxs }
  | [], _ => rfl
  | p :: l, w => by
    rw [List.foldl_cons, Work.takeUps_ctxs l (w.takeUp p), Work.takeUp_ctxs w p]

/-! ### The first record (R56, R155, R171) -/

/-- Of a list in rising order the first element with a value is found. -/
theorem findSome_of_least {β : Type} {f : Pocket → Option β} {p : Pocket} {y : β} (hp : f p = some y) :
    ∀ {l : List Pocket}, l.Pairwise (· < ·) → p ∈ l → (∀ q, q < p → f q = none) → l.findSome? f = some y
  | [], _, h, _ => absurd h List.not_mem_nil
  | a :: l, sorted, h, least => by
    obtain ⟨first, sorted⟩ := List.pairwise_cons.1 sorted
    rw [List.findSome?_cons]
    rcases List.mem_cons.1 h with rfl | later
    · rw [hp]
    · rw [least a (first p later)]
      exact findSome_of_least hp sorted later least

theorem State.nextCommit_first {s : State} {p : Pocket} {x : Image} (next : s.plan.next = 0) (low : p.val < s.count)
    (image : s.plan.images[p] = some x) (least : ∀ q : Pocket, q.val < p.val → s.plan.images[q] = none) : s.nextCommit = some (p, x) := by
  unfold State.nextCommit
  refine findSome_of_least (p := p) ?_ ((List.pairwise_lt_finRange 32).filter _) (State.mem_pockets.2 low) fun q hq => ?_
  · rw [next, if_pos (Nat.zero_le _), image]
    rfl
  · rw [next, if_pos (Nat.zero_le _), least q hq]
    rfl

/-- What the taking up of records keeps of the record of `p`: its image, the frame of a context of it, and whether it is pinned. -/
def State.takes (s : State) (p : Pocket) (x : Image) (b : Bool) : Prop :=
  s.plan.images[p] = some x ∧ (∀ c, s.ctx p = some c → c.frame = x.frame) ∧ s.isPinned p = b

theorem Work.takeUp_takes {w : Work} {p : Pocket} {x : Image} {b : Bool} (q : Pocket) (h : w.takes p x b) : (w.takeUp q).takes p x b := by
  obtain ⟨image, frame, pinned⟩ := id h
  unfold Work.takeUp
  split
  · exact h
  · next y held =>
    dsimp only
    split
    · by_cases e : p = q
      · subst e
        obtain rfl := Option.some.inj (held.symm.trans image)
        have here (d : Option Context) : (w.setCtx p d).ctx p = d := upd_self _ _ _
        refine ⟨image, fun c hc => ?_, ?_⟩
        · rw [here] at hc
          obtain rfl := Option.some.inj hc
          rfl
        · unfold State.isPinned
          rw [here]
          exact pinned
      · have other (d : Option Context) : (w.setCtx q d).ctx p = w.ctx p := upd_other _ _ e
        refine ⟨image, fun c hc => frame c ((other _).symm.trans hc), ?_⟩
        unfold State.isPinned
        rw [other]
        exact pinned
    · exact h

/-- With every frame read all records are taken up, and step 3 begins (R155, R157). -/
theorem Work.planRecords_all {w : Work} (step : w.plan.step = .planning) (next : w.plan.next = 0)
    (read : ∀ q, w.opStands (·.isPlannerReadOf q) = false) : w.planRecords = { w with
      ctxs := (w.pockets.foldl (fun w p => w.takeUp p) w).ctxs
      plan := { w.plan with step := .commits, next := 0 } } := by
  have ready : (w.pockets.drop w.plan.next).takeWhile (fun p => !w.opStands (·.isPlannerReadOf p)) = w.pockets := by
    rw [next, List.drop_zero]
    refine List.takeWhile_eq_self_iff.2 fun q _ => ?_
    rw [read]
    rfl
  have full : ¬ w.plan.next + w.pockets.length < w.pockets.length := by omega
  unfold Work.planRecords
  rw [if_pos step, ready]
  have taken := Work.takeUps_ctxs w.pockets w
  generalize (w.pockets.foldl (fun w p => w.takeUp p) w).ctxs = v at taken ⊢
  refine (congrArg (fun u : Work => { u with
    plan := if u.plan.next + w.pockets.length < u.pockets.length then { u.plan with next := u.plan.next + w.pockets.length }
      else { u.plan with step := .commits, next := 0 } }) taken).trans ?_
  exact congrArg (fun x : Planner => ({ w with ctxs := v, plan := x } : Work)) (if_neg full)

theorem Work.commitNext_of {w : Work} {p : Pocket} {x : Image} (step : w.plan.step = .commits) (idle : w.opStands StoreOp.isCommit = false)
    (first : w.nextCommit = some (p, x)) : w.commitNext = Work.commitRecord { w with plan := { w.plan with next := p.val + 1 } } p x := by
  unfold Work.commitNext
  rw [if_pos ⟨step, by rw [idle]; rfl⟩, first]

/-- The state in which the first record is committed, the records having been taken up with contexts `v`. -/
def State.commits (s : State) (v : Vector (Option Context) 32) (p : Pocket) : Work :=
  { s.plans with ctxs := v, plan := { s.planningBegun.plan with step := .commits, next := p.val + 1 } }

/-- Planning takes every record up and commits the first (R155, R171). -/
theorem State.plansFirst.planOn {s : State} {p : Pocket} {x : Image} (h : s.plansFirst p x) : ∃ v, s.plans.planOn = (s.commits v p).commitRecord p x ∧
    (s.commits v p).takes p x (s.isPinned p) := by
  obtain ⟨-, -, -, low, read, commits, image, least, frame⟩ := h
  have records := Work.planRecords_all (w := s.plans) rfl rfl read
  have taken : (s.plans.pockets.foldl (fun w p => w.takeUp p) s.plans).takes p x (s.isPinned p) :=
    foldl_keeps (P := fun t => t.takes p x (s.isPinned p)) (fun w q => Work.takeUp_takes q) _ ⟨image, frame, rfl⟩
  obtain ⟨-, frame, pinned⟩ := taken
  unfold State.isPinned State.ctx at pinned frame
  generalize (s.plans.pockets.foldl (fun w p => w.takeUp p) s.plans).ctxs = v at records frame pinned
  refine ⟨v, ?_, image, frame, pinned⟩
  unfold Work.planOn
  rw [records]
  exact Work.commitNext_of rfl commits (State.nextCommit_first rfl low image least)

theorem exec_firstPollWindowEnd_plans {s : State} {p q : Pocket} {x : Image} (h : s.plansFirst p x) (hw : s.plan.window.map (·.pocket) = some q) :
    ∃ v, exec (.firstPollWindowEnd q) s = .next ((s.commits v p).commitRecord p x).finish ∧ (s.commits v p).takes p x (s.isPinned p) := by
  obtain ⟨v, planned, takes⟩ := h.planOn
  obtain ⟨hp, ha, ⟨y, window, last⟩, -⟩ := h
  rw [window] at hw
  rw [exec_firstPollWindowEnd hp ha window (Option.some.inj hw), Work.endWindow_last (by exact window) (by exact last), Work.beginPlanning_eq, planned]
  exact ⟨v, rfl, takes⟩

/-! ### The commit of a record (R56, R171) -/

theorem State.takes.commitFrame {s : State} {p : Pocket} {x : Image} {b : Bool} (h : s.takes p x b) : s.commitFrame p x = x.frame := by
  obtain ⟨-, frame, -⟩ := h
  unfold State.commitFrame
  split
  · next c hc => exact frame c hc
  · rfl

theorem Work.commitRecord_retire {w : Work} {p : Pocket} {x : Image} (h : (w.planInputs p x).outcome = .retire) : w.commitRecord p x =
    ((w.dropContext p).mark .retired p).enqueue (.retire p (w.commitFrame p x) (w.isPinned p) false) := by
  unfold Work.commitRecord
  rw [h]

/-- What a commit that is no retirement leaves before its write is enqueued. -/
theorem Work.commitRecord_commit {w : Work} {p : Pocket} {x : Image} {f : Fast} {a b : Nat} (h : (w.planInputs p x).outcome = .commit f a b) :
    let d := w.committedContext p x (w.linkAtCommit p a f) a b
    ∃ e, w.commitRecord p x = (let v : Work := { w.setCtx p (some d) with events := e }
      if d.commitMove then v.enqueueCommitMove p d.frame else v.demandCheckpoint p) := by
  unfold Work.commitRecord
  rw [h]
  dsimp only
  have marked (v : Work) (c : Bool) (k : PocketEvent) : ∃ e, (if c = true then v else v.mark k p) = { v with events := e } := by
    split
    · exact ⟨_, rfl⟩
    · exact ⟨_, rfl⟩
  have marked' (v : Work) (c : Prop) [Decidable c] (k : PocketEvent) : ∃ e, (if c then v.mark k p else v) = { v with events := e } := by
    split
    · exact ⟨_, rfl⟩
    · exact ⟨_, rfl⟩
  generalize w.committedContext p x (w.linkAtCommit p a f) a b = d
  generalize w.setCtx p (some d) = v
  obtain ⟨e, first⟩ := marked v (x.has 1 && (w.linkAtCommit p a f).phase == x.data.fast.phase) .phase
  rw [first]
  obtain ⟨e', second⟩ := marked { v with events := e } (x.has 1 && (w.linkAtCommit p a f).hold == x.data.fast.hold) .hold
  rw [second]
  obtain ⟨e'', third⟩ := marked' { v with events := e' } ((w.linkAtCommit p a f).status = .pending) .resume
  exact ⟨e'', congrArg (fun v : Work => if d.commitMove = true then v.enqueueCommitMove p d.frame else v.demandCheckpoint p) third⟩

theorem Work.enqueueCommitMove_waits (w : Work) (p : Pocket) (f : Nat) : .move p f true ∈ (w.enqueueCommitMove p f).ctl.queue ∧
    (w.enqueueCommitMove p f).ctxs = w.ctxs ∧ (w.enqueueCommitMove p f).store = w.store ∧ (w.enqueueCommitMove p f).plan = w.plan ∧
    (w.enqueueCommitMove p f).part = w.part := by
  unfold Work.enqueueCommitMove
  split
  · next waits =>
    obtain ⟨op, hop, is⟩ := List.any_eq_true.1 waits
    exact ⟨List.mem_map.2 ⟨op, hop, if_pos is⟩, rfl, rfl, rfl, rfl⟩
  · exact ⟨List.mem_append_right _ (List.mem_singleton.2 rfl), rfl, rfl, rfl, rfl⟩

/-- A checkpoint demanded in PLAN waits (R61). -/
theorem Work.demandCheckpoint_waits {w : Work} {p : Pocket} {d : Context} (hd : w.ctx p = some d) (ha : w.part = .plan)
    (none : w.checkpointQueued p = false) : .checkpoint p ∈ (w.demandCheckpoint p).ctl.queue ∧
      (w.demandCheckpoint p).ctx p = some { d with checkpoint := if d.checkpoint = .writing then .writing else .queued } ∧
      (w.demandCheckpoint p).store = w.store ∧ (w.demandCheckpoint p).plan = w.plan ∧ (w.demandCheckpoint p).part = w.part := by
  have calls : ¬ (w.part = .save ∨ w.part = .dark ∨ (w.ctx p).isNone = true ∨ w.checkpointQueued p = true) := by simp [ha, hd, none]
  unfold Work.demandCheckpoint
  rw [if_neg calls, Work.onCtx_of_ctx hd]
  exact ⟨List.mem_append_right _ (List.mem_singleton.2 rfl), upd_self _ _ _, rfl, rfl, rfl⟩

/-- The LINK hold at a commit (R171). -/
theorem State.linkAtCommit_same {s : State} {p : Pocket} {f : Fast} (a : Nat) (h : (s.pocketLink p).state = .online ∨ f.phase = .staged ∨ f.phase = .done) :
    s.linkAtCommit p a f = f := by
  refine if_pos ?_
  rcases h with h | h | h
  · exact .inl h
  · exact .inr (.inl (by rw [h]; rfl))
  · exact .inr (.inl (by rw [h]; rfl))

theorem State.linkAtCommit_hold {s : State} {p : Pocket} {f : Fast} (a : Nat) (h : (s.pocketLink p).state ≠ .online) (hs : f.phase ≠ .staged)
    (hd : f.phase ≠ .done) (hh : f.hold ≠ .damaged) : (s.linkAtCommit p a f).hold = .link := by
  have applies : HoldCause.link.appliesIn f.phase = true := by
    cases hf : f.phase
    case staged => exact absurd hf hs
    case done => exact absurd hf hd
    all_goals rfl
  have rank : ¬ HoldCause.rank .link < f.hold.rank := by
    cases hf : f.hold
    case damaged => exact absurd hf hh
    all_goals decide
  unfold State.linkAtCommit
  rw [if_neg (by simp [h, applies, rank])]
  dsimp only
  split <;> rfl

/-- The first record retired (R171). -/
theorem Work.commitRecord_retires {w : Work} {p : Pocket} {x : Image} {b : Bool} (h : w.takes p x b) (retires : (w.planInputs p x).outcome = .retire) :
    (w.commitRecord p x).ctx p = none ∧ (w.commitRecord p x).events.retired.has p = true ∧
    .retire p x.frame b false ∈ (w.commitRecord p x).ctl.queue ∧ (w.commitRecord p x).store = w.store ∧ (w.commitRecord p x).plan = w.plan ∧
    (w.commitRecord p x).part = w.part := by
  have frame := h.commitFrame
  obtain ⟨-, -, pinned⟩ := h
  rw [Work.commitRecord_retire retires, frame, pinned]
  exact ⟨upd_self _ _ _, Mask.has_put_self _ _, List.mem_append_right _ (List.mem_singleton.2 rfl), rfl, rfl, rfl⟩

/-- The context that a commit leaves, its write waiting (R56, R171). -/
structure State.Committed (s t : State) (p : Pocket) (x : Image) (d : Context) : Prop where
  move : x.commitMove = true → .move p x.frame true ∈ t.ctl.queue
  checkpoint : x.commitMove = false → .checkpoint p ∈ t.ctl.queue
  store : t.store = s.store
  plan : t.plan = s.plan
  part : t.part = s.part
  ctx : ∃ y, t.ctx p = some { d with checkpoint := y }

theorem State.idle_checkpointQueued {s : State} (h : s.opStands StoreOp.isCommit = false) (p : Pocket) : s.checkpointQueued p = false := by
  have none : s.ctl.queue.any StoreOp.isCommit = false := (Bool.or_eq_false_iff.1 h).1
  refine Bool.eq_false_iff.2 fun waits => ?_
  obtain ⟨op, hop, is⟩ := List.any_eq_true.1 waits
  refine Bool.eq_false_iff.1 none (List.any_eq_true.2 ⟨op, hop, ?_⟩)
  cases op
  case checkpoint q => rfl
  all_goals exact absurd is Bool.false_ne_true

/-- The first record committed (R56, R171). -/
theorem Work.commitRecord_commits {w : Work} {p : Pocket} {x : Image} {b : Bool} {f : Fast} {i n : Nat} (h : w.takes p x b) (ha : w.part = .plan)
    (idle : w.opStands StoreOp.isCommit = false) (commits : (w.planInputs p x).outcome = .commit f i n) :
    State.Committed w.toState (w.commitRecord p x).toState p x (w.committedContext p x (w.linkAtCommit p i f) i n) := by
  have frame : (w.committedContext p x (w.linkAtCommit p i f) i n).frame = x.frame := h.commitFrame
  have still : (w.committedContext p x (w.linkAtCommit p i f) i n).commitMove = x.commitMove := by
    unfold State.committedContext
    dsimp only
    rw [h.commitFrame]
    simp
  obtain ⟨e, ended⟩ := Work.commitRecord_commit commits
  dsimp only at ended
  generalize w.committedContext p x (w.linkAtCommit p i f) i n = d at frame still ended ⊢
  rw [ended, still, frame]
  have here : State.ctx ({ w.setCtx p (some d) with events := e } : Work).toState p = some d := upd_self _ _ _
  split
  · next move =>
    obtain ⟨waits, ctxs, store, plan, part⟩ := Work.enqueueCommitMove_waits { w.setCtx p (some d) with events := e } p x.frame
    refine ⟨fun _ => waits, fun h => Bool.noConfusion (move.symm.trans h), store, plan, part, d.checkpoint, ?_⟩
    exact (congrArg (fun v : Vector (Option Context) 32 => v[p]) ctxs).trans here
  · next stays =>
    obtain ⟨waits, ctx, store, plan, part⟩ := Work.demandCheckpoint_waits here (by exact ha) (State.idle_checkpointQueued (by exact idle) p)
    exact ⟨fun h => absurd h stays, fun _ => waits, store, plan, part, _, ctx⟩

/-- Settles O52. -/
theorem firstPollsGoPocketByPocket : Obligations.FirstPollsGoPocketByPocket := by
  unfold Obligations.FirstPollsGoPocketByPocket
  refine ⟨fun p q x s hp ha hw hx => ⟨fun hq low => ?_, fun last pos stands => ?_, fun none room => ?_, fun ⟨e, he, mine⟩ => ?_⟩,
    fun p q x s h hw retires => ?_, fun p q x f a b s h hw commits => ?_⟩
  · have opened : (Work.begin s).endWindow = (Work.begin s).openWindow q := Work.endWindow_next (by exact hw) (by rw [hx]; exact hq) low
    rw [exec_firstPollWindowEnd hp ha hw hx, opened]
    have part : ((Work.begin s).openWindow q).part = .plan := by
      unfold Work.openWindow
      rw [Work.postPoll_eq]
      exact ha
    rw [Work.finish_outside_active _ (by rw [part]; exact PartState.noConfusion)]
    refine ⟨_, rfl, ?_⟩
    unfold Work.openWindow
    rw [Work.postPoll_eq]
    refine ⟨rfl, rfl, rfl, rfl, fun admits unsent => congrArg (s.link.queue ++ ·) (if_pos ?_)⟩
    rw [Bool.and_eq_true, Bool.not_eq_true']
    exact ⟨admits, unsent⟩
  · rw [exec_firstPollWindowEnd hp ha hw hx, Work.endWindow_last (by exact hw) (by rw [hx]; exact last), Work.beginPlanning_eq,
      Work.planOn_waits rfl rfl pos stands, Work.finish_of_quiet _ rfl]
    rfl
  · have free : (s.link.queue.any (Entry.isFor · p)) = false := by
      refine Bool.eq_false_iff.2 fun waits => ?_
      obtain ⟨e, he, mine⟩ := List.any_eq_true.1 waits
      exact Bool.noConfusion ((none e he).symm.trans mine)
    have unsent : s.unsent p .poll = false := by
      refine Bool.eq_false_iff.2 fun waits => ?_
      obtain ⟨e, he, mine⟩ := List.any_eq_true.1 waits
      simp [none e he] at mine
    have count : s.entryCount p = 0 := by
      unfold State.entryCount
      rw [List.length_eq_zero_iff, List.filter_eq_nil_iff]
      exact fun e he => by simp [none e he]
    have admits : s.admits p .poll = true := by
      simp [State.admits, Config.linkQueueMax, Config.perPocketMax, room, count]
    rw [exec_firstPollRepoll hp ha hw hx, if_neg (by simp [free]), Work.postPoll_eq, if_pos, Work.finish_of_quiet _ rfl]
    · rfl
    · rw [Bool.and_eq_true, Bool.not_eq_true']
      exact ⟨admits, unsent⟩
  · rw [exec_firstPollRepoll hp ha hw hx, if_pos (List.any_eq_true.2 ⟨e, he, mine⟩), Work.finish_of_quiet _ rfl]
    rfl
  · obtain ⟨v, ended, takes⟩ := exec_firstPollWindowEnd_plans h hw
    obtain ⟨-, ha, -⟩ := h
    obtain ⟨ctx, retired, queue, store, plan, part⟩ := Work.commitRecord_retires takes (by exact retires)
    have out : ((s.commits v p).commitRecord p x).part ≠ .active := by
      rw [part]
      exact fun e => PartState.noConfusion (ha.symm.trans e)
    rw [Work.finish_outside_active _ out] at ended
    refine ⟨_, ended, ?_⟩
    dsimp only
    rw [plan]
    exact ⟨rfl, rfl, rfl, ctx, retired, queue, store⟩
  · obtain ⟨v, ended, takes⟩ := exec_firstPollWindowEnd_plans h hw
    obtain ⟨-, ha, -, -, -, idle, -⟩ := h
    have committed := Work.commitRecord_commits takes ha idle (by exact commits)
    have frame : ((s.commits v p).committedContext p x ((s.commits v p).linkAtCommit p a f) a b).frame = x.frame := takes.commitFrame
    have out : ((s.commits v p).commitRecord p x).part ≠ .active := by
      rw [committed.part]
      exact fun e => PartState.noConfusion (ha.symm.trans e)
    rw [Work.finish_outside_active _ out] at ended
    obtain ⟨move, checkpoint, store, plan, -, y, ctx⟩ := committed
    refine ⟨_, ended, ?_⟩
    dsimp only
    rw [plan]
    refine ⟨rfl, rfl, rfl, store, move, checkpoint, _, ctx, frame, rfl, rfl, rfl, rfl, rfl, fun same => ?_, fun away hs hd hh => ?_⟩
    · exact State.linkAtCommit_same a same
    · exact State.linkAtCommit_hold a away hs hd hh

end Sys2Proof.Machine
end
section
/-! SUPPORT. What an event on the record of a pocket keeps: the rest of the part, the standing of the pocket's link, and its
requests, slot and reservation (chapters 1, 5 and 6). -/

namespace Sys2Proof.Machine

/-! ### Kept by all that an event does to a record -/

/-- What is kept by all that a hold does to the record of `p`: its context changes, a mark is set, its request and reservation
go, a checkpoint joins the queue, and what is desired is derived again (R14, R20). -/
structure KeptOnRecord (P : State → Prop) (p : Pocket) : Prop where
  ctx : ∀ (w : Work) (f : Context → Context), P w.toState → P (w.onCtx p f).toState
  mark : ∀ (w : Work) (k : PocketEvent), P w.toState → P (w.mark k p).toState
  request : ∀ w : Work, P w.toState → P (w.removeRequest p).toState
  heat : ∀ w : Work, P w.toState → P (w.releaseHeat p).toState
  queue : ∀ (w : Work) (op : StoreOp), P w.toState → P (w.enqueue op).toState
  derive : ∀ w : Work, P w.toState → P (w.rederive p).toState

section
variable {P : State → Prop} {p : Pocket} (K : KeptOnRecord P p) {w : Work}
include K

theorem KeptOnRecord.markWhere (c : Prop) [Decidable c] (k : PocketEvent) (h : P w.toState) : P (if c then w.mark k p else w).toState := by
  split
  · exact K.mark w k h
  · exact h

theorem KeptOnRecord.recordFault (x : FaultCause) (h : P w.toState) : P (w.recordFault p x).toState := by
  unfold Work.recordFault Work.onFast
  split
  · exact K.ctx w _ h
  · exact h

theorem KeptOnRecord.demandCheckpoint (h : P w.toState) : P (w.demandCheckpoint p).toState := by
  unfold Work.demandCheckpoint
  split
  · exact h
  · exact K.queue _ _ (K.ctx w _ h)

theorem KeptOnRecord.endCrease (h : P w.toState) : P (w.endCrease p).toState := by
  unfold Work.endCrease Work.leaveCrease
  exact K.demandCheckpoint (K.mark _ _ (K.derive _ (K.request _ (K.markWhere _ _ (K.markWhere _ _ (K.ctx w _ h))))))

theorem KeptOnRecord.takeHold (x : HoldCause) (h : P w.toState) : P (w.takeHold p x).toState := by
  unfold Work.takeHold
  split
  · exact h
  · split
    · exact h
    · dsimp only
      have held (f : Context → Context) : P ((w.onCtx p f).mark .hold p).toState := K.mark _ .hold (K.ctx w f h)
      have asked {v : Work} (hv : P v.toState) : P (((v.removeRequest p).releaseHeat p).rederive p).toState := K.derive _ (K.heat _ (K.request v hv))
      split
      · exact K.endCrease (asked (K.markWhere _ _ (held _)))
      · exact K.demandCheckpoint (asked (K.markWhere _ _ (held _)))

end

theorem KeptOnRecord.and {P Q : State → Prop} {p : Pocket} (K : KeptOnRecord P p) (L : KeptOnRecord Q p) : KeptOnRecord (fun s => P s ∧ Q s) p where
  ctx w f h := ⟨K.ctx w f h.1, L.ctx w f h.2⟩
  mark w k h := ⟨K.mark w k h.1, L.mark w k h.2⟩
  request w h := ⟨K.request w h.1, L.request w h.2⟩
  heat w h := ⟨K.heat w h.1, L.heat w h.2⟩
  queue w op h := ⟨K.queue w op h.1, L.queue w op h.2⟩
  derive w h := ⟨K.derive w h.1, L.derive w h.2⟩

/-! ### The rest of the part -/

/-- The port and the event marks of every other pocket. -/
def State.elsewhere (s : State) (p : Pocket) : HostPort × EventSet := (s.port, s.events.without p)

theorem State.elsewhere_of_offLink {a b : State} (p : Pocket) (h : a.offLink = b.offLink) : a.elsewhere p = b.elsewhere p := by
  have port : a.port = b.port := (congrArg State.port h :)
  have events : a.events = b.events := (congrArg State.events h :)
  unfold State.elsewhere
  rw [port, events]

theorem State.elsewhere_of_offGrant {a b : State} (p : Pocket) (h : a.offGrant = b.offGrant) : a.elsewhere p = b.elsewhere p := by
  have port : a.port = b.port := (congrArg State.port h :)
  have events : a.events = b.events := (congrArg State.events h :)
  unfold State.elsewhere
  rw [port, events]

/-- Nothing but the record, the link and the marks of `p` has changed. -/
theorem State.sameBut_of {t s : State} {p : Pocket} (record : t.offRecord p = s.offRecord p) (rest : t.elsewhere p = s.elsewhere p) :
    t.sameBut s p := ⟨record, congrArg Prod.fst rest, congrArg Prod.snd rest⟩

theorem Mask.put_put (m : Mask) (p : Pocket) (a b : Bool) : (m.put p a).put p b = m.put p b := by
  refine BitVec.eq_of_getLsbD_eq fun i hi => ?_
  by_cases e : i = p.val <;> cases a <;> cases b <;> simp [Mask.put, e, hi]

theorem EventSet.without_markPocket (e : EventSet) (k : PocketEvent) (p : Pocket) : (e.markPocket k p).without p = e.without p := by
  cases k <;> simp [EventSet.markPocket, EventSet.without, Mask.put_put]

theorem Work.mark_elsewhere (w : Work) (k : PocketEvent) (p : Pocket) : (w.mark k p).elsewhere p = w.elsewhere p :=
  congrArg (Prod.mk w.port) (EventSet.without_markPocket w.events k p)

theorem State.elsewhere_kept (p : Pocket) (x : HostPort × EventSet) : KeptOnRecord (fun s => s.elsewhere p = x) p where
  ctx w f h := by
    refine Eq.trans ?_ h
    unfold Work.onCtx
    split <;> rfl
  mark w k h := (w.mark_elsewhere k p).trans h
  request w h := h
  heat w h := (State.elsewhere_of_offLink p (w.releaseHeat_offLink p)).trans h
  queue w op h := h
  derive w h := (State.elsewhere_of_offLink p (w.rederive_offLink p)).trans h

/-! ### The marks of the pocket -/

/-- Whether the mark `k` of the pocket is set (R185). -/
def EventSet.marked (e : EventSet) (k : PocketEvent) (p : Pocket) : Bool :=
  match k with
  | .phase => e.phase.has p
  | .hold => e.hold.has p
  | .resume => e.resume.has p
  | .link => e.link.has p
  | .retired => e.retired.has p
  | .recordLost => e.recordLost.has p

theorem EventSet.marked_markPocket_self (e : EventSet) (k : PocketEvent) (p : Pocket) : (e.markPocket k p).marked k p = true := by
  cases k <;> exact Mask.has_put_self _ p

theorem EventSet.marked_markPocket {e : EventSet} {k : PocketEvent} {p : Pocket} (h : e.marked k p = true) (k' : PocketEvent) :
    (e.markPocket k' p).marked k p = true := by
  by_cases same : k' = k
  · subst same
    exact e.marked_markPocket_self k' p
  · cases k <;> cases k' <;> simp_all [EventSet.marked, EventSet.markPocket]

theorem State.marked_of_offLink {a b : State} (h : a.offLink = b.offLink) {k : PocketEvent} {p : Pocket} (hb : b.events.marked k p = true) :
    a.events.marked k p = true := by
  have events : a.events = b.events := (congrArg State.events h :)
  rw [events]
  exact hb

theorem State.marked_kept (k : PocketEvent) (p : Pocket) : KeptOnRecord (fun s => s.events.marked k p = true) p where
  ctx w f h := by
    unfold Work.onCtx
    split <;> exact h
  mark w k' h := EventSet.marked_markPocket h k'
  request w h := h
  heat w h := State.marked_of_offLink (w.releaseHeat_offLink p) h
  queue w op h := h
  derive w h := State.marked_of_offLink (w.rederive_offLink p) h

/-! ### The standing of a link -/

/-- What a link record says of the pocket's state, its attempts and its probe time. -/
def PocketLink.standing (l : PocketLink) : LinkState × Option FaultCause × Nat × Option Nat := (l.state, l.cause, l.startAttempts, l.offlineMs)

/-- The standing of the link of `p`. -/
def State.standing (s : State) (p : Pocket) : LinkState × Option FaultCause × Nat × Option Nat := (s.pocketLink p).standing

theorem State.standing_of_cores {s t : State} (h : t.cores = s.cores) (p : Pocket) : t.standing p = s.standing p := by
  have core := State.core_of_cores h p
  unfold State.standing PocketLink.standing
  rw [PocketLink.state_of_core core, PocketLink.cause_of_core core, PocketLink.startAttempts_of_core core, PocketLink.offlineMs_of_core core]

theorem State.standing_of_link {s t : State} (h : t.link = s.link) (p : Pocket) : t.standing p = s.standing p :=
  congrArg (fun l : LinkCtl => l.pockets[p].standing) h

theorem Work.onLink_standing (w : Work) (q p : Pocket) {f : PocketLink → PocketLink} (h : ∀ l, (f l).standing = l.standing) :
    (w.onLink q f).standing p = w.standing p := by
  unfold State.standing
  by_cases e : p = q
  · subst e
    rw [Work.pocketLink_onLink_self]
    exact h _
  · rw [Work.pocketLink_onLink_other _ _ e]

/-- The standing of a link outlasts the end of a command. -/
theorem State.standing_keptAtEnd (p : Pocket) (x : LinkState × Option FaultCause × Nat × Option Nat) : KeptAtEnd fun s => s.standing p = x where
  converge w q h := (State.standing_of_cores (Work.convergeOne_cores w q) p).trans h
  probe w q _ h := (State.standing_of_cores (Work.postProbe_cores w q) p).trans h
  serve w x q r _ h := by cases x <;> exact h
  grant w q n _ h := (w.granted_pocketLink q n p (by exact fun _ _ => rfl)).trans h

theorem Work.endAuthority_standing (w : Work) (q p : Pocket) : (w.endAuthority q).standing p = w.standing p := by
  unfold Work.endAuthority
  split
  · exact (State.standing_of_cores (Work.removeEntries_cores _ _) p).trans (w.onLink_standing q p (by exact fun _ => rfl))
  · rfl

theorem Work.rederive_standing (w : Work) (q p : Pocket) : (w.rederive q).standing p = w.standing p := by
  have converged : (w.converge q).standing p = w.standing p := (State.standing_keptAtEnd p _).convergeAll rfl q
  unfold Work.rederive
  dsimp only
  split
  · exact converged
  · exact (Work.endAuthority_standing _ q p).trans converged

theorem State.standing_kept (p : Pocket) (x : LinkState × Option FaultCause × Nat × Option Nat) : KeptOnRecord (fun s => s.standing p = x) p where
  ctx w f h := (State.standing_of_link (w.onCtx_link p f) p).trans h
  mark _ _ h := h
  request _ h := h
  heat w h := (State.standing_of_link (w.releaseHeat_link p) p).trans h
  queue _ _ h := h
  derive w h := (w.rederive_standing p p).trans h

/-! ### Requests, slots and reservations -/

theorem Work.onSlot_slotOf (w : Work) (p : Pocket) {f : Slot → Slot} (h : ∀ x, (f x).pocket = x.pocket) :
    (w.onSlot p f).slotOf p = (w.slotOf p).map f := by
  show (w.arb.slots.map _).find? (·.pocket == p) = (w.arb.slots.find? (·.pocket == p)).map f
  induction w.arb.slots with
  | nil => rfl
  | cons x l ih =>
    by_cases e : x.pocket = p
    · simp [e, h]
    · simp only [List.map_cons, e, if_false, List.find?_cons, beq_eq_false_iff_ne.2 e]
      exact ih

/-- A slot that carries no request stands. -/
theorem State.slot_kept (p : Pocket) {x : Option Slot} (hx : ∀ y ∈ x, y.carried = none) : KeptOnRecord (fun s => s.slotOf p = x) p := by
  have same {s t : State} (e : t.arb = s.arb) (h : s.slotOf p = x) : t.slotOf p = x :=
    (congrArg (fun a : Arbiter => a.slots.find? fun y : Slot => y.pocket == p) e).trans h
  exact {
    ctx w f h := same (w.onCtx_arb p f) h
    mark w k h := h
    request w h := by
      refine (Work.onSlot_slotOf (w.setRequest p none) p (f := fun x => { x with carried := none }) fun _ => rfl).trans ?_
      rw [show (w.setRequest p none).slotOf p = x from h]
      cases x with
      | none => rfl
      | some y =>
        have none := hx y rfl
        exact congrArg some (by cases y; simp_all)
    heat w h := same (w.releaseHeat_arb p) h
    queue w op h := h
    derive w h := same (w.rederive_arb p) h }

theorem State.noRequest_kept (p : Pocket) : KeptOnRecord (fun s => s.request p = none) p := by
  have same {s t : State} (e : t.arb = s.arb) (h : s.request p = none) : t.request p = none := (congrArg (fun a : Arbiter => a.requests[p]) e).trans h
  exact {
    ctx w f h := same (w.onCtx_arb p f) h
    mark w k h := h
    request w h := upd_self _ _ _
    heat w h := same (w.releaseHeat_arb p) h
    queue w op h := h
    derive w h := same (w.rederive_arb p) h }

/-- A pocket that asks for nothing goes on so. -/
theorem State.asksNothing_keptOnRecord (p : Pocket) : KeptOnRecord (fun s => s.asksNothing p) p :=
  (State.noRequest_kept p).and (State.slot_kept p fun _ h => nomatch h)

theorem State.reservesNothing_keptOnRecord (p : Pocket) : KeptOnRecord (fun s => s.reservesNothing p) p where
  ctx w f h := State.reservesNothing_of_heat (by unfold Work.onCtx; split <;> rfl) h
  mark w k h := h
  request w h := h
  heat w h := Work.releaseHeat_reservesNothing fun x _ => h.2 x
  queue w op h := h
  derive w h := h.rederive p

end Sys2Proof.Machine
end
section
/-! SUPPORT. What a hold does to its record, and a pocket whose link is lost (R14, R89, R90). -/

namespace Sys2Proof.Machine

/-! ### The hold that a record takes -/

theorem State.holdOf_of_ctxs {s t : State} (h : t.ctxs = s.ctxs) (p : Pocket) : t.holdOf p = s.holdOf p := by
  unfold State.holdOf State.ctx
  rw [h]

theorem State.holdOf_of_offLink {s t : State} (h : t.offLink = s.offLink) (p : Pocket) : t.holdOf p = s.holdOf p :=
  State.holdOf_of_ctxs (State.ctxs_of_offLink h) p

theorem State.holdOf_of_offGrant {s t : State} (h : t.offGrant = s.offGrant) (p : Pocket) : t.holdOf p = s.holdOf p := by
  have fast := congrArg (Option.map Fast.hold) (State.fast_of_offGrant (p := p) h)
  simpa only [Option.map_map, Function.comp_def, State.holdOf] using fast

theorem Work.onCtx_holdOf (w : Work) (p : Pocket) {f : Context → Context} {g : HoldCause → HoldCause} (h : ∀ c, (f c).fast.hold = g c.fast.hold) :
    (w.onCtx p f).holdOf p = (w.holdOf p).map g := by
  unfold State.holdOf
  rw [w.ctx_onCtx_self, Option.map_map, Option.map_map]
  exact congrArg (fun k => (w.ctx p).map k) (funext h)

theorem Work.demandCheckpoint_holdOf (w : Work) (p : Pocket) : (w.demandCheckpoint p).holdOf p = w.holdOf p := by
  unfold Work.demandCheckpoint
  split
  · rfl
  · exact (w.onCtx_holdOf p (g := id) (by exact fun _ => rfl)).trans Option.map_id_apply

theorem Work.markWhere_ctxs (w : Work) (c : Prop) [Decidable c] (k : PocketEvent) (p : Pocket) : (if c then w.mark k p else w).ctxs = w.ctxs := by
  split <;> rfl

theorem Work.endCrease_holdOf {w : Work} {p : Pocket} {x : HoldCause} (h : w.holdOf p = some x) (hx : x ≠ .link) :
    (w.endCrease p).holdOf p = some x := by
  have left (v : Work) : ((v.removeRequest p).rederive p).holdOf p = v.holdOf p :=
    State.holdOf_of_offLink ((Work.rederive_offLink _ p).trans (v.removeRequest_offLink p)) p
  unfold Work.endCrease Work.leaveCrease
  rw [Work.demandCheckpoint_holdOf]
  refine (left _).trans ?_
  rw [State.holdOf_of_ctxs (Work.markWhere_ctxs _ _ _ p), State.holdOf_of_ctxs (Work.markWhere_ctxs _ _ _ p),
    w.onCtx_holdOf p (g := fun x => if x = .link then .none else x) (by exact fun _ => rfl), h]
  exact congrArg some (if_neg hx)

/-- The record of `p` has taken hold `x`: it is marked, and the pocket has no request (R13, R14). -/
def State.heldBy (s : State) (p : Pocket) (x : HoldCause) : Prop := s.holdOf p = some x ∧ s.events.marked .hold p = true ∧ s.request p = none

/-- **A cause that applies and ranks above the present one is taken** (R13, R14); one that ends the crease leaves no LINK hold
(R77). -/
theorem Work.takeHold_holds {w : Work} {p : Pocket} {x : HoldCause} {c : Context} (hc : w.ctx p = some c)
    (applies : x.appliesIn c.fast.phase = true) (above : c.fast.hold.rank < x.rank) (h : x ≠ .link ∨ c.fast.progress = none) :
    (w.takeHold p x).heldBy p x := by
  have asked (v : Work) : (((v.removeRequest p).releaseHeat p).rederive p).holdOf p = v.holdOf p :=
    State.holdOf_of_offLink (((Work.rederive_offLink _ p).trans (Work.releaseHeat_offLink _ p)).trans (v.removeRequest_offLink p)) p
  have unasked (v : Work) : (((v.removeRequest p).releaseHeat p).rederive p).request p = none := by
    unfold State.request
    rw [Work.rederive_arb, Work.releaseHeat_arb]
    exact upd_self _ _ _
  have marks := State.marked_kept .hold p
  have asks := State.noRequest_kept p
  unfold Work.takeHold
  simp only [hc]
  rw [if_neg (by simp [applies]; omega)]
  have taken (f : Context → Context) (hf : ∀ c, (f c).fast.hold = x) : ((w.onCtx p f).mark .hold p).holdOf p = some x := by
    refine (w.onCtx_holdOf p (g := fun _ => x) hf).trans ?_
    simp [State.holdOf, hc]
  have marked (v : Work) : (v.mark .hold p).events.marked .hold p = true := EventSet.marked_markPocket_self _ .hold p
  generalize hv : (if x = .heatFault ∧ c.fast.status = .pending then (Work.mark _ .hold p).mark .resume p else Work.mark _ .hold p) = v
  have hold : v.holdOf p = some x := by
    rw [← hv, State.holdOf_of_ctxs (Work.markWhere_ctxs _ _ _ p)]
    exact taken _ fun _ => rfl
  have mark : v.events.marked .hold p = true := hv ▸ marks.markWhere _ _ (marked _)
  have derived := marks.derive _ (marks.heat _ (marks.request v mark))
  split
  · next last =>
    have notLink : x ≠ .link := h.resolve_right fun none => by simp [none] at last
    exact ⟨Work.endCrease_holdOf ((asked v).trans hold) notLink, marks.endCrease derived, asks.endCrease (unasked v)⟩
  · exact ⟨(Work.demandCheckpoint_holdOf _ p).trans ((asked v).trans hold), marks.demandCheckpoint derived, asks.demandCheckpoint (unasked v)⟩

end Sys2Proof.Machine
end
section
/-! SUPPORT. A pocket that loses its link (R89, R90). -/

namespace Sys2Proof.Machine

/-! ### A pocket with nothing left in the link queue -/

/-- No entry of `p` is in the link queue, the pocket is OFFLINE, and it is owed neither a SAFE nor a probe. -/
def State.unlinked (s : State) (p : Pocket) : Prop :=
  (∀ x ∈ s.link.queue, x.pocket ≠ some p) ∧ (s.pocketLink p).safeOwed = false ∧ (s.pocketLink p).probeOwed = false

/-- What joins the queue for other pockets leaves it so. -/
theorem State.unlinked.brought {s t : State} {p : Pocket} (h : s.unlinked p) (a : State.Brings (· ≠ p) s t) : t.unlinked p := by
  obtain ⟨out, safe, probe⟩ := h
  refine ⟨fun x hx pocket => ?_, Bool.eq_false_iff.2 fun owed => ?_, Bool.eq_false_iff.2 fun owed => ?_⟩
  · rcases a.origin ⟨x, hx, pocket⟩ with other | ⟨y, hy, same⟩
    · exact other rfl
    · exact out y hy same
  · exact absurd (a.safe p owed) (by simp [safe])
  · rcases a.probe p owed with was | other | ⟨y, hy, same⟩
    · exact absurd was (by simp [probe])
    · exact other rfl
    · exact out y hy same

/-- A SAFE is owed to other pockets alone. -/
theorem State.unlinked.safeOwed {s : State} {p : Pocket} (h : s.unlinked p) : ∀ q, (s.pocketLink q).safeOwed = true → q ≠ p := by
  rintro q owed rfl
  exact absurd owed (by simp [h.2.1])

theorem State.unlinked_of_link {s t : State} (h : t.link = s.link) {p : Pocket} (hs : s.unlinked p) : t.unlinked p :=
  hs.brought (State.Brings.of_link h)

theorem State.state_of_standing {s t : State} {p : Pocket} (h : t.standing p = s.standing p) : (t.pocketLink p).state = (s.pocketLink p).state :=
  congrArg Prod.fst h

/-- An OFFLINE pocket with nothing in the queue stays so at the end of a command (R96, R105). -/
theorem State.unlinked_keptAtEnd (p : Pocket) : KeptAtEnd fun s => s.unlinked p ∧ (s.pocketLink p).state = .offline := by
  have stands {s t : State} (h : t.standing p = s.standing p) (hs : (s.pocketLink p).state = .offline) : (t.pocketLink p).state = .offline :=
    (State.state_of_standing h).trans hs
  exact {
    converge w q h := by
      refine ⟨?_, stands (State.standing_of_cores (Work.convergeOne_cores w q) p) h.2⟩
      by_cases e : q = p
      · subst e
        have idle : w.converges q = false := by simp [State.converges, h.2]
        unfold Work.convergeOne
        rw [idle]
        exact h.1
      · exact h.1.brought (Work.convergeOne_brings h.1.safeOwed e)
    probe w q owed h := by
      have other : q ≠ p := by
        rintro rfl
        exact absurd owed (by simp [h.1.2.2])
      exact ⟨h.1.brought (w.postProbe_brings other), stands (State.standing_of_cores (Work.postProbe_cores w q) p) h.2⟩
    serve w x q r _ h := by cases x <;> exact h
    grant w q n _ h := by
      have same {α : Type} {f : PocketLink → α} (hf : ∀ (l : PocketLink) (b : Bool), f { l with runAuthority := b } = f l) :=
        w.granted_pocketLink q n p hf
      obtain ⟨⟨out, safe, probe⟩, state⟩ := h
      refine ⟨⟨?_, (same (f := PocketLink.safeOwed) fun _ _ => rfl).trans safe, (same (f := PocketLink.probeOwed) fun _ _ => rfl).trans probe⟩,
        (same (f := PocketLink.state) fun _ _ => rfl).trans state⟩
      rw [Work.granted_queue]
      exact out }

theorem Work.endAuthority_unlinked {w : Work} {p : Pocket} (h : w.unlinked p) (q : Pocket) : (w.endAuthority q).unlinked p := by
  unfold Work.endAuthority
  split
  · have off : (w.onLink q fun l => { l with runAuthority := false }).unlinked p :=
      h.brought (Work.onLink_brings w q (fun _ h => h) fun _ h => .inl h)
    exact off.brought (Work.removeEntries_brings off.safeOwed _)
  · exact h

theorem State.unlinked_kept (p : Pocket) : KeptOnRecord (fun s => s.unlinked p ∧ (s.pocketLink p).state = .offline) p := by
  have same {s t : State} (e : t.link = s.link) (h : s.unlinked p ∧ (s.pocketLink p).state = .offline) :
      t.unlinked p ∧ (t.pocketLink p).state = .offline :=
    ⟨State.unlinked_of_link e h.1, (State.state_of_standing (State.standing_of_link e p)).trans h.2⟩
  exact {
    ctx w f h := same (w.onCtx_link p f) h
    mark w k h := h
    request w h := h
    heat w h := same (w.releaseHeat_link p) h
    queue w op h := h
    derive w h := by
      have converged := (State.unlinked_keptAtEnd p).convergeAll h p
      unfold Work.rederive
      dsimp only
      split
      · exact converged
      · exact ⟨Work.endAuthority_unlinked converged.1 p, (State.state_of_standing (Work.endAuthority_standing _ p p)).trans converged.2⟩ }

/-! ### A probe is owed to an OFFLINE pocket alone -/

section
variable (w : Work) (p : Pocket)

theorem Work.leave_probeOwed (left stay : List Entry) : ((w.leave left stay).pocketLink p).probeOwed = (w.pocketLink p).probeOwed := by
  have latch (es : List Entry) : ∀ v : Work, ((v.clearLatchSeen es).pocketLink p).probeOwed = (v.pocketLink p).probeOwed := by
    induction es with
    | nil => exact fun _ => rfl
    | cons e es ih =>
      intro v
      unfold Work.clearLatchSeen
      split
      · rename_i q _ _
        refine (ih _).trans ?_
        by_cases e : p = q
        · subst e
          rw [Work.pocketLink_onLink_self]
        · rw [Work.pocketLink_onLink_other _ _ e]
      · exact ih v
  unfold Work.leave
  split
  · rfl
  · exact latch left _

/-- The pocket is not OFFLINE, and no probe is owed to it. -/
def State.unprobed (s : State) (p : Pocket) : Prop := (s.pocketLink p).state ≠ .offline ∧ (s.pocketLink p).probeOwed = false

variable {w p}

theorem Work.leave_unprobed (h : w.unprobed p) (left stay : List Entry) : (w.leave left stay).unprobed p :=
  ⟨fun off => h.1 ((State.state_of_standing (State.standing_of_cores (Work.leave_cores w left stay) p)).symm.trans off),
    (w.leave_probeOwed p left stay).trans h.2⟩

theorem Work.makeRoom_unprobed (h : w.unprobed p) : w.makeRoom.unprobed p := by
  unfold Work.makeRoom
  split
  · exact h
  · split
    · have left : (w.dropNewest (·.waits .poll)).unprobed p := Work.leave_unprobed h _ _
      unfold Work.oweProbe
      split
      · rename_i q _
        split
        · next off =>
          have other : p ≠ q := by
            rintro rfl
            exact left.1 off
          unfold State.unprobed
          rw [Work.pocketLink_onLink_other _ _ other]
          exact left
        · exact left
      · exact left
    · exact Work.leave_unprobed h _ _

theorem Work.onLink_unprobed (h : w.unprobed p) (q : Pocket) {f : PocketLink → PocketLink} (state : ∀ l, (f l).state = l.state)
    (probe : ∀ l, (f l).probeOwed = l.probeOwed) : (w.onLink q f).unprobed p := by
  unfold State.unprobed
  by_cases e : p = q
  · subst e
    rw [Work.pocketLink_onLink_self, state, probe]
    exact h
  · rw [Work.pocketLink_onLink_other _ _ e]
    exact h

theorem Work.putSafe_unprobed (h : w.unprobed p) (q : Pocket) : (w.putSafe q).unprobed p := by
  unfold Work.putSafe
  dsimp only
  generalize hg : (fun e : Entry => e.isFor q && e.state != .inFlight && !(e.kind == .safe && e.state == .unsent)) = g
  have dropped : (w.dropEntries g).unprobed p := Work.leave_unprobed h _ _
  split
  · exact dropped
  · have room := Work.makeRoom_unprobed dropped
    generalize (w.dropEntries g).makeRoom = v at room
    split
    · exact Work.onLink_unprobed (w := v.setQueue (Entry.fresh (some q) .safe :: v.link.queue)) room q (by exact fun _ => rfl) (by exact fun _ => rfl)
    · exact Work.onLink_unprobed room q (by exact fun _ => rfl) (by exact fun _ => rfl)

theorem Work.removeEntries_unprobed (h : w.unprobed p) (g : Entry → Bool) : (w.removeEntries g).unprobed p := by
  have dropped : (w.dropEntries g).unprobed p := Work.leave_unprobed h _ _
  unfold Work.removeEntries Work.admitSafes
  split
  · split
    · refine foldl_keeps (P := fun s => s.unprobed p) (fun v q hv => ?_) _ dropped
      split
      · exact Work.putSafe_unprobed hv q
      · exact hv
    · exact dropped
  · exact h

end

end Sys2Proof.Machine
end
section
/-! SUPPORT. What silence on the link leads to (R89, R90). -/

namespace Sys2Proof.Machine

/-! ### What a lost link takes from the arbiter and the record -/

/-- The pocket has lost its reservation, its request, its slot and its RUN authority (R90). -/
def Work.disarmed (w : Work) (p : Pocket) : Work := (((w.releaseHeat p).removeRequest p).releaseSlot p).endAuthority p

section
variable {w : Work} {p : Pocket}

theorem Work.loseLink_eq (x : FaultCause) :
    w.loseLink p x = if (w.disarmed p).part = .active then ((w.disarmed p).recordFault p x).takeHold p .link else w.disarmed p := rfl

/-- What a lost link takes from the pocket leaves all that a hold and the end of a RUN authority leave. -/
theorem KeptOnRecord.loseLink {P : State → Prop} (K : KeptOnRecord P p) (x : FaultCause) (h : P (w.disarmed p).toState) :
    P (w.loseLink p x).toState := by
  rw [Work.loseLink_eq]
  split
  · exact K.takeHold .link (K.recordFault x h)
  · exact h

theorem Work.takeStart_offLink (v : Work) (p : Pocket) : ((v.removeRequest p).releaseSlot p).offLink = v.offLink := rfl

theorem Work.takeStart_link (v : Work) (p : Pocket) : ((v.removeRequest p).releaseSlot p).link = v.link := rfl

theorem Work.takeStart_heat (v : Work) (p : Pocket) : ((v.removeRequest p).releaseSlot p).heat = v.heat := rfl

theorem Work.takeStart_asksNothing (v : Work) (p : Pocket) : ((v.removeRequest p).releaseSlot p).asksNothing p :=
  ⟨upd_self _ _ _, Work.releaseSlot_slotOf _ p⟩

theorem Work.disarmed_offLink (w : Work) (p : Pocket) : (w.disarmed p).offLink = w.offLink :=
  (Work.endAuthority_offLink _ p).trans ((Work.takeStart_offLink _ p).trans (w.releaseHeat_offLink p))

theorem Work.disarmed_standing (w : Work) (p : Pocket) : (w.disarmed p).standing p = w.standing p :=
  (Work.endAuthority_standing _ p p).trans (State.standing_of_link ((Work.takeStart_link _ p).trans (w.releaseHeat_link p)) p)

theorem Work.disarmed_unlinked (h : w.unlinked p) : (w.disarmed p).unlinked p :=
  Work.endAuthority_unlinked (State.unlinked_of_link ((Work.takeStart_link _ p).trans (w.releaseHeat_link p)) h) p

theorem Work.disarmed_reservesNothing (h : w.waitsOnItsPhase p) : (w.disarmed p).reservesNothing p :=
  State.reservesNothing_of_heat ((Work.endAuthority_heat _ p).trans (Work.takeStart_heat _ p)) (Work.releaseHeat_reservesNothing h)

theorem Work.disarmed_asksNothing (w : Work) (p : Pocket) : (w.disarmed p).asksNothing p :=
  State.asksNothing_of_arb (Work.endAuthority_arb _ p) (Work.takeStart_asksNothing _ p)

/-- A fault that is recorded leaves the phase, the crease progress and the hold. -/
theorem Work.recordFault_ctx {c : Context} (hc : w.ctx p = some c) (x : FaultCause) :
    ∃ d, (w.recordFault p x).ctx p = some d ∧ d.fast.phase = c.fast.phase ∧ d.fast.progress = c.fast.progress ∧ d.fast.hold = c.fast.hold := by
  unfold Work.recordFault Work.onFast
  split
  · refine ⟨c.change fun f => { f with lastFault := some x }, ?_, rfl, rfl, rfl⟩
    rw [w.ctx_onCtx_self, hc]
    rfl
  · exact ⟨c, hc, rfl, rfl, rfl⟩

/-- The hold of a record whose pocket has lost its link (R90). -/
theorem Work.loseLink_holdOf (ha : w.part = .active) {c : Context} (hc : w.ctx p = some c) (phase : c.fast.phase = .heat ∨ c.fast.phase = .cool)
    (progress : c.fast.progress = none) (whole : c.fast.hold ≠ .damaged) (x : FaultCause) : (w.loseLink p x).holdOf p = some .link := by
  have part : (w.disarmed p).part = .active := Eq.trans (congrArg State.part (w.disarmed_offLink p) :) ha
  have record : (w.disarmed p).ctx p = some c := (congrArg (fun l : Vector (Option Context) 32 => l[p]) (State.ctxs_of_offLink (w.disarmed_offLink p))).trans hc
  rw [Work.loseLink_eq, if_pos part]
  generalize w.disarmed p = v at record
  obtain ⟨d, hd, phase', progress', hold'⟩ := Work.recordFault_ctx record x
  by_cases held : c.fast.hold = .link
  · unfold Work.takeHold
    simp only [hd]
    rw [if_pos (by simp [hold', held])]
    simp [State.holdOf, hd, hold', held]
  · refine (Work.takeHold_holds hd ?_ ?_ (.inr (progress'.trans progress))).1
    · rw [phase']
      rcases phase with h | h <;> simp [h, HoldCause.appliesIn]
    · rw [hold']
      cases hc : c.fast.hold <;> simp_all [HoldCause.rank]

end

/-! ### OFFLINE (R89) -/

/-- The link of the pocket is OFFLINE, and nothing of it is left in the link queue. -/
def Work.unlink (w : Work) (p : Pocket) : Work :=
  ((w.setLinkState p .offline none).onLink p fun l => { l with offlineMs := some Config.offlineProbeMs }).clearLink p

section
variable {w : Work} {p : Pocket}

theorem Work.goOffline_eq (h : (w.pocketLink p).state ≠ .fault) : w.goOffline p = (w.unlink p).loseLink p .silent := if_neg h

/-- Every entry of the pocket leaves, and none joins for it (R90). -/
theorem Work.removeEntries_unlinked (safe : (w.pocketLink p).safeOwed = false) (probe : (w.pocketLink p).probeOwed = false) :
    (w.removeEntries fun e => e.isFor p).unlinked p := by
  unfold Work.removeEntries
  split
  · have left : State.Brings (· ≠ p) w.toState (w.dropEntries fun e => e.isFor p).toState := w.dropEntries_brings _
    have probed : ((w.dropEntries fun e => e.isFor p).pocketLink p).probeOwed = false := (w.leave_probeOwed p _ _).trans probe
    have out : (w.dropEntries fun e => e.isFor p).unlinked p := by
      refine ⟨fun x hx pocket => ?_, Bool.eq_false_iff.2 fun owed => absurd (left.safe p owed) (by simp [safe]), probed⟩
      rw [Work.dropEntries_queue] at hx
      simpa [Entry.isFor, pocket] using (List.mem_filter.1 hx).2
    exact out.brought (Work.admitSafes_brings out.safeOwed)
  · next hn =>
    exact ⟨fun x hx pocket => hn (List.any_eq_true.2 ⟨x, hx, by simp [Entry.isFor, pocket]⟩), safe, probe⟩

/-- The link record of a pocket that goes OFFLINE. -/
def PocketLink.toOffline (l : PocketLink) : PocketLink := { l with state := .offline, cause := none, safeOwed := false, offlineMs := some 5000 }

theorem Work.unlink_eq (known : (w.pocketLink p).state ≠ .offline) : w.unlink p = ((w.onLink p PocketLink.toOffline).mark .link p).clearLink p := by
  unfold Work.unlink
  rw [Work.setLinkState_of_ne known]
  have moved (v : Work) (f : PocketLink → PocketLink) : (v.mark .link p).onLink p f = (v.onLink p f).mark .link p := rfl
  rw [moved, Work.onLink_onLink]
  rfl

/-- A pocket that goes OFFLINE (R90). -/
theorem Work.unlink_facts (h : w.unprobed p) :
    (w.unlink p).unlinked p ∧ (w.unlink p).standing p = (.offline, none, 0, some 5000) ∧ (w.unlink p).events.marked .link p = true := by
  have record : ((w.onLink p PocketLink.toOffline).mark .link p).pocketLink p = (w.pocketLink p).toOffline := w.pocketLink_onLink_self p _
  have marked : ((w.onLink p PocketLink.toOffline).mark .link p).events.marked .link p = true := EventSet.marked_markPocket_self _ .link p
  rw [Work.unlink_eq h.1]
  generalize (w.onLink p PocketLink.toOffline).mark .link p = v at record marked
  unfold Work.clearLink
  have out : (v.removeEntries fun e => e.isFor p).unlinked p :=
    Work.removeEntries_unlinked (by rw [record]; rfl) (by rw [record]; exact h.2)
  have core := State.core_of_cores (Work.removeEntries_cores v fun e => e.isFor p) p
  rw [record] at core
  refine ⟨out.brought (Work.onLink_brings _ p (by exact fun _ h => h) (by exact fun _ h => .inl h)), ?_,
    State.marked_of_offLink (v.removeEntries_offLink _) marked⟩
  unfold State.standing
  rw [Work.pocketLink_onLink_self]
  unfold PocketLink.standing
  dsimp only
  rw [PocketLink.state_of_core core, PocketLink.cause_of_core core, PocketLink.offlineMs_of_core core]
  rfl

end

end Sys2Proof.Machine
end
section
/-! SUPPORT. Silence on the link (R89, R90). -/

namespace Sys2Proof.Machine

/-! ### The end of an exchange, and the broadcast that waits for it -/

section
variable (w : Work) (p : Pocket)

theorem Work.endExchange_pocketLink : w.endExchange.pocketLink p = (w.removeEntries (·.state == .inFlight)).pocketLink p := rfl

theorem Work.endExchange_standing : w.endExchange.standing p = w.standing p :=
  State.standing_of_cores (Work.removeEntries_cores w (·.state == .inFlight)) p

theorem Work.endExchange_heat : w.endExchange.heat = w.heat := Work.removeEntries_heat w _

theorem Work.sendBroadcast_pocketLink : ∃ b x, w.sendBroadcast.pocketLink p = { w.pocketLink p with motorBelieved := b, heatBelieved := x } := by
  unfold Work.sendBroadcast
  split
  · refine ⟨false, none, ?_⟩
    unfold Work.believeAllSafe State.pocketLink
    exact Vector.getElem_map _ p.isLt
  · exact ⟨_, _, rfl⟩

theorem Work.sendBroadcast_standing : w.sendBroadcast.standing p = w.standing p := by
  obtain ⟨b, x, record⟩ := w.sendBroadcast_pocketLink p
  unfold State.standing
  rw [record]
  rfl

theorem onFirst_pockets {f : Entry → Bool} {g : Entry → Entry} (h : ∀ x, (g x).pocket = x.pocket) :
    ∀ (l : List Entry), (onFirst f g l).map (·.pocket) = l.map (·.pocket)
  | [] => rfl
  | x :: l => by
    unfold onFirst
    split
    · simp [h]
    · simp [onFirst_pockets h l]

theorem Work.sendBroadcast_pockets : w.sendBroadcast.link.queue.map (·.pocket) = w.link.queue.map (·.pocket) := by
  unfold Work.sendBroadcast
  split
  · exact onFirst_pockets (g := fun x => { x with state := .inFlight }) (fun _ => rfl) _
  · rfl

theorem Work.sendBroadcast_of_noBroadcast {w : Work} (h : w.noBroadcast) : w.sendBroadcast = w := by
  have unicast : w.link.queue.any (·.pocket.isNone) = false := by
    rw [List.any_eq_false]
    exact fun e he => by simpa [Option.isNone_iff_eq_none] using h e he
  unfold Work.sendBroadcast
  rw [unicast, Bool.and_false]
  rfl

variable {w p}

theorem Work.sendBroadcast_unlinked (h : w.unlinked p) : w.sendBroadcast.unlinked p := by
  obtain ⟨out, safe, probe⟩ := h
  obtain ⟨b, x, record⟩ := w.sendBroadcast_pocketLink p
  refine ⟨fun e he pocket => ?_, by rw [record]; exact safe, by rw [record]; exact probe⟩
  have listed : some p ∈ w.link.queue.map (·.pocket) := by
    rw [← w.sendBroadcast_pockets]
    exact List.mem_map.2 ⟨e, he, pocket⟩
  obtain ⟨y, hy, same⟩ := List.mem_map.1 listed
  exact out y hy same

end

/-! ### Only entries of pockets, and none in flight -/

/-- What joins the queue is of a pocket, and unsent. -/
theorem State.Brings.noBroadcast {Q : Pocket → Prop} {s t : State} (a : State.Brings Q s t) (h : s.noBroadcast) : t.noBroadcast := fun x hx =>
  (a.entries x hx).elim (h x) fun ⟨_, q, pocket, _⟩ none => by simp [pocket] at none

/-- No exchange is under way. -/
def State.linkFree (s : State) : Prop := ∀ x ∈ s.link.queue, x.state ≠ .inFlight

theorem State.Brings.linkFree {Q : Pocket → Prop} {s t : State} (a : State.Brings Q s t) (h : s.linkFree) : t.linkFree := fun x hx =>
  (a.entries x hx).elim (h x) fun ⟨state, _⟩ flies => by simp [state] at flies

theorem State.inFlight_of_linkFree {s : State} (h : s.linkFree) : s.inFlight = none :=
  List.find?_eq_none.2 fun x hx => by simpa using h x hx

theorem State.linkFree_keptAtEnd : KeptAtEnd fun s => s.linkFree where
  converge w q h := (Work.convergeOne_brings (Q := fun _ => True) (fun _ _ => trivial) trivial).linkFree h
  probe w q _ h := (w.postProbe_brings (Q := fun _ => True) trivial).linkFree h
  serve w x q r _ h := by cases x <;> exact h
  grant w q n _ h := by
    unfold State.linkFree
    rw [Work.granted_queue]
    exact h

/-- After its end no exchange is under way, and no broadcast has joined. -/
theorem Work.endExchange_linkFree (w : Work) : w.endExchange.linkFree := by
  show (w.removeEntries (·.state == .inFlight)).linkFree
  unfold Work.removeEntries
  split
  · refine (Work.admitSafes_brings (Q := fun _ => True) fun _ _ => trivial).linkFree fun x hx => ?_
    rw [Work.dropEntries_queue] at hx
    simpa using (List.mem_filter.1 hx).2
  · next hn => exact fun x hx flies => hn (List.any_eq_true.2 ⟨x, hx, by simp [flies]⟩)

theorem Work.endExchange_noBroadcast {w : Work} (h : w.noBroadcast) : w.endExchange.noBroadcast :=
  State.Brings.noBroadcast (t := (w.removeEntries (·.state == .inFlight)).toState)
    (Work.removeEntries_brings (Q := fun _ => True) (fun _ _ => trivial) _) h

/-! ### The rest of the part -/

theorem Work.setLinkState_elsewhere (w : Work) (p : Pocket) (x : LinkState) (c : Option FaultCause) : (w.setLinkState p x c).elsewhere p = w.elsewhere p := by
  unfold Work.setLinkState
  split
  · rfl
  · exact Work.mark_elsewhere _ _ p

theorem Work.clearLink_offLink (w : Work) (p : Pocket) : (w.clearLink p).offLink = w.offLink := w.removeEntries_offLink _

/-- What a command that ends an exchange leaves of the rest of the part. -/
theorem Work.endOfExchange_sameBut {w : Work} {s : State} {p : Pocket} (record : w.offRecord p = s.offRecord p) (rest : w.elsewhere p = s.elsewhere p) :
    w.sendBroadcast.finish.sameBut s p := by
  refine State.sameBut_of ?_ ?_
  · rw [Work.finish_offRecord, Work.sendBroadcast_offRecord, record]
  · rw [State.elsewhere_of_offGrant p (Work.finish_offGrant _), State.elsewhere_of_offLink p w.sendBroadcast_offLink, rest]

/-! ### The reply window expires -/

section
variable {s : State} {p : Pocket} {e : Entry} (h : s.exchanging p e)
include h

theorem exec_replyWindowExpiry : exec .replyWindowExpiry s = .next ((Work.begin s).silence p e).sendBroadcast.finish := by
  obtain ⟨hp, ha, flies, pocket⟩ := h
  have e' : exec .replyWindowExpiry s = execReplyWindowExpiry s := rfl
  have found : (Work.begin s).inFlight = some e := flies
  have acts : (Work.begin s).linkActs = true := by
    show (s.part == .active || s.part == .plan) = true
    simp [ha]
  rw [e', execReplyWindowExpiry, onExchange_on hp]
  simp only [found, pocket, acts, if_true]

end

/-- Nothing is left of a pocket that has gone OFFLINE: its entries, its request and slot, its reservation (R90). -/
structure State.GoneOffline (s : State) (p : Pocket) : Prop where
  out : s.unlinked p
  standing : s.standing p = (.offline, none, 0, some 5000)
  mark : s.events.marked .link p = true
  asks : s.asksNothing p
  free : s.reservesNothing p

theorem State.GoneOffline.offline {s : State} {p : Pocket} (h : s.GoneOffline p) : (s.pocketLink p).state = .offline := congrArg Prod.fst h.standing

theorem State.GoneOffline.sendBroadcast {w : Work} {p : Pocket} (h : w.GoneOffline p) : w.sendBroadcast.GoneOffline p where
  out := Work.sendBroadcast_unlinked h.out
  standing := (w.sendBroadcast_standing p).trans h.standing
  mark := State.marked_of_offLink w.sendBroadcast_offLink h.mark
  asks := State.asksNothing_of_arb w.sendBroadcast_arb h.asks
  free := State.reservesNothing_of_heat w.sendBroadcast_heat h.free

theorem State.GoneOffline.finish {w : Work} {p : Pocket} (h : w.GoneOffline p) : w.finish.GoneOffline p where
  out := ((State.unlinked_keptAtEnd p).finish ⟨h.out, h.offline⟩).1
  standing := (State.standing_keptAtEnd p _).finish h.standing
  mark := by
    rw [Work.finish_events]
    exact h.mark
  asks := (State.asksNothing_kept p).finish h.asks
  free := (State.reservesNothing_kept p).finish h.free

section
variable {w : Work} {p : Pocket} (unprobed : w.unprobed p) (known : (w.pocketLink p).state ≠ .fault)
include unprobed known

theorem Work.goOffline_goneOffline (place : w.waitsOnItsPhase p) : (w.goOffline p).GoneOffline p := by
  obtain ⟨out, standing, mark⟩ := Work.unlink_facts unprobed
  have offline : ((w.unlink p).pocketLink p).state = .offline := congrArg Prod.fst standing
  have waits : (w.unlink p).waitsOnItsPhase p := by
    have view : (w.unlink p).offRecord p = w.offRecord p := by simp [Work.unlink]
    have loaded : (w.unlink p).ctl.loaded = w.ctl.loaded := (congrArg (fun t : State => t.ctl.loaded) view :)
    have heat : (w.unlink p).heat = w.heat := by
      rw [Work.unlink_eq unprobed.1]
      exact Work.removeEntries_heat _ _
    unfold State.waitsOnItsPhase State.phaseOf State.setting State.waitList at *
    rw [loaded, heat]
    exact place
  rw [Work.goOffline_eq known]
  generalize w.unlink p = v at *
  have stood := (v.disarmed_standing p).trans standing
  obtain ⟨out', -⟩ := (State.unlinked_kept p).loseLink .silent
    ⟨Work.disarmed_unlinked out, (State.state_of_standing (v.disarmed_standing p)).trans offline⟩
  exact {
    out := out'
    standing := (State.standing_kept p _).loseLink .silent stood
    mark := (State.marked_kept .link p).loseLink .silent (State.marked_of_offLink (v.disarmed_offLink p) mark)
    asks := (State.asksNothing_keptOnRecord p).loseLink .silent (v.disarmed_asksNothing p)
    free := (State.reservesNothing_keptOnRecord p).loseLink .silent (Work.disarmed_reservesNothing waits) }

omit unprobed in
theorem Work.goOffline_elsewhere : (w.goOffline p).elsewhere p = w.elsewhere p := by
  have unlinked : (w.unlink p).elsewhere p = w.elsewhere p :=
    (State.elsewhere_of_offLink p (Work.clearLink_offLink _ p)).trans (w.setLinkState_elsewhere p .offline none)
  rw [Work.goOffline_eq known]
  exact (State.elsewhere_kept p _).loseLink .silent ((State.elsewhere_of_offLink p ((w.unlink p).disarmed_offLink p)).trans unlinked)

theorem Work.goOffline_holdOf (ha : w.part = .active) {c : Context} (hc : w.ctx p = some c) (phase : c.fast.phase = .heat ∨ c.fast.phase = .cool)
    (progress : c.fast.progress = none) (whole : c.fast.hold ≠ .damaged) : (w.goOffline p).holdOf p = some .link := by
  have same : (w.unlink p).part = w.part ∧ (w.unlink p).ctxs = w.ctxs := by
    rw [Work.unlink_eq unprobed.1]
    have view := Work.clearLink_offLink ((w.onLink p PocketLink.toOffline).mark .link p) p
    exact ⟨(congrArg State.part view :), (congrArg State.ctxs view :)⟩
  rw [Work.goOffline_eq known]
  exact Work.loseLink_holdOf (same.1.trans ha) ((congrArg (fun l : Vector (Option Context) 32 => l[p]) same.2).trans hc) phase progress whole .silent

end

/-- Settles O39: what a pocket that goes OFFLINE loses stays lost, since no entry joins for it and it asks for nothing. -/
theorem silenceLeadsToOffline : Obligations.SilenceLeadsToOffline := by
  unfold Obligations.SilenceLeadsToOffline
  intro p e s h quiet
  obtain ⟨hp, ha, flies, pocket⟩ := id h
  rw [exec_replyWindowExpiry h]
  have state (x : LinkState) (hx : (s.pocketLink p).state = x) : ((Work.begin s).pocketLink p).state = x := hx
  have ended : (Work.begin s).endExchange.standing p = s.standing p := Work.endExchange_standing _ p
  have still : (Work.begin s).endExchange.noBroadcast := Work.endExchange_noBroadcast quiet
  have view : (Work.begin s).endExchange.offLink = s.offLink := Work.endExchange_offLink _
  have heat : (Work.begin s).endExchange.heat = s.heat := Work.endExchange_heat _
  have ungranted : (Work.begin s).endExchange.grant = false := Work.removeEntries_grant (Work.begin s) _
  refine ⟨fun known few => ?_, fun known many noProbe place => ?_, fun offline => ?_, fun fault poll => ?_⟩
  · have resent : (Work.begin s).silence p e = (Work.begin s).resend := by
      have more : ¬ Config.sendsBeforeOffline ≤ e.silent + 1 := by
        show ¬ 4 ≤ e.silent + 1
        omega
      unfold Work.silence
      rcases known with k | k <;> simp only [state _ k] <;> exact if_neg more
    rw [resent, Work.sendBroadcast_of_noBroadcast, Work.finish_of_quiet _ rfl]
    · rfl
    · intro x hx
      obtain ⟨y, hy, rfl⟩ := List.mem_map.1 hx
      have unicast := quiet y hy
      split <;> exact unicast
  · have gone : (Work.begin s).silence p e = (Work.begin s).endExchange.goOffline p := by
      have last : Config.sendsBeforeOffline ≤ e.silent + 1 := by
        show 4 ≤ e.silent + 1
        omega
      unfold Work.silence
      rcases known with k | k <;> simp only [state _ k] <;> exact if_pos last
    have unprobed : (Work.begin s).endExchange.unprobed p :=
      Work.removeEntries_unprobed (w := Work.begin s) ⟨by rcases known with k | k <;> simp [k], noProbe⟩ _
    have lives : ((Work.begin s).endExchange.pocketLink p).state ≠ .fault := by
      rw [State.state_of_standing ended]
      rcases known with k | k <;> simp [k]
    have waits : (Work.begin s).endExchange.waitsOnItsPhase p := by
      have loaded : (Work.begin s).endExchange.ctl.loaded = s.ctl.loaded := (congrArg (fun t : State => t.ctl.loaded) view :)
      unfold State.waitsOnItsPhase State.phaseOf State.setting State.waitList at *
      rw [loaded, heat]
      exact place
    have rest : ((Work.begin s).endExchange.goOffline p).sendBroadcast.finish.sameBut s p := by
      refine Work.endOfExchange_sameBut ?_ ?_
      · simp
      · exact (Work.goOffline_elsewhere lives).trans (State.elsewhere_of_offLink p view)
    have off := (Work.goOffline_goneOffline unprobed lives waits).sendBroadcast.finish
    rw [gone]
    refine ⟨_, rfl, rest, off.offline, congrArg (fun x => x.2.2.2) off.standing, congrArg (fun x => x.2.2.1) off.standing, off.mark,
      off.out.1, off.asks.1, off.asks.2, off.free.1, fun c hc phase progress whole => ?_⟩
    rw [State.holdOf_of_offGrant (Work.finish_offGrant _), State.holdOf_of_offLink (Work.sendBroadcast_offLink _)]
    exact Work.goOffline_holdOf unprobed lives (Eq.trans (congrArg State.part view :) ha)
      ((congrArg (fun l : Vector (Option Context) 32 => l[p]) (State.ctxs_of_offLink view)).trans hc) phase progress whole
  · have waits : (Work.begin s).silence p e = (Work.begin s).endExchange.onLink p fun l => { l with offlineMs := some Config.offlineProbeMs } := by
      unfold Work.silence
      simp only [state _ offline]
    have timed : ((Work.begin s).endExchange.onLink p fun l => { l with offlineMs := some Config.offlineProbeMs }).standing p =
        (((Work.begin s).endExchange.pocketLink p).state, ((Work.begin s).endExchange.pocketLink p).cause,
          ((Work.begin s).endExchange.pocketLink p).startAttempts, some 5000) :=
      congrArg PocketLink.standing (Work.pocketLink_onLink_self _ p _)
    rw [waits, Work.sendBroadcast_of_noBroadcast (by exact still)]
    have stands := (State.standing_keptAtEnd p _).finish timed
    exact ⟨_, rfl, (congrArg Prod.fst stands).trans ((State.state_of_standing ended).trans offline), congrArg (fun x => x.2.2.2) stands,
      (Work.finish_of_ungranted (by exact ungranted)).trans ((Work.onLink_offLink _ p _).trans view)⟩
  · have ends : (Work.begin s).silence p e = (Work.begin s).endExchange := by
      unfold Work.silence
      simp only [state _ fault]
      exact if_pos (.inl poll)
    rw [ends, Work.sendBroadcast_of_noBroadcast still]
    exact ⟨_, rfl, (State.state_of_standing ((State.standing_keptAtEnd p _).finish ended)).trans fault,
      (Work.finish_of_ungranted ungranted).trans view, State.inFlight_of_linkFree (State.linkFree_keptAtEnd.finish (Work.endExchange_linkFree _))⟩

end Sys2Proof.Machine
end
section
/-! SUPPORT. A RUN or HEAT_ON that the pocket refuses (R99 to R103, R124). -/

namespace Sys2Proof.Machine

/-! ### A pocket that goes to FAULT -/

section
variable {w : Work} {p : Pocket}

/-- The link of the pocket is in FAULT, its entries have left, and a SAFE is posted for it (R90). -/
def Work.faultLink (w : Work) (p : Pocket) (x : FaultCause) : Work :=
  (((w.setLinkState p .fault (some x)).onLink p fun l => { l with offlineMs := none, probeOwed := false }).clearLink p).postSafe p

theorem Work.goFault_eq (h : (w.pocketLink p).state ≠ .fault) (x : FaultCause) : w.goFault p x = (w.faultLink p x).loseLink p x := if_neg h

/-- The link record of a pocket that goes to FAULT. -/
def PocketLink.toFault (x : FaultCause) (l : PocketLink) : PocketLink :=
  { l with state := .fault, cause := some x, offlineMs := none, probeOwed := false }

theorem Work.faultLink_eq (h : (w.pocketLink p).state ≠ .fault) (x : FaultCause) :
    w.faultLink p x = (((w.onLink p (PocketLink.toFault x)).mark .link p).clearLink p).postSafe p := by
  unfold Work.faultLink
  rw [Work.setLinkState_of_ne h]
  have moved (v : Work) (f : PocketLink → PocketLink) : (v.mark .link p).onLink p f = (v.onLink p f).mark .link p := rfl
  rw [moved, Work.onLink_onLink]
  rfl

theorem Work.postSafe_cores (w : Work) (p : Pocket) : (w.postSafe p).cores = w.cores := by simp [Work.postSafe]

theorem Work.clearLink_standing (w : Work) (p : Pocket) :
    (w.clearLink p).standing p = ((w.pocketLink p).state, (w.pocketLink p).cause, 0, (w.pocketLink p).offlineMs) := by
  have core := State.core_of_cores (Work.removeEntries_cores w fun e => e.isFor p) p
  unfold Work.clearLink State.standing
  rw [Work.pocketLink_onLink_self]
  unfold PocketLink.standing
  dsimp only
  rw [PocketLink.state_of_core core, PocketLink.cause_of_core core, PocketLink.offlineMs_of_core core]

/-- Nothing is left of a pocket that has gone to FAULT but its SAFE (R90). -/
structure State.GoneToFault (s : State) (p : Pocket) (x : FaultCause) : Prop where
  standing : s.standing p = (.fault, some x, 0, none)
  mark : s.events.marked .link p = true
  asks : s.asksNothing p

theorem Work.faultLink_facts (h : (w.pocketLink p).state ≠ .fault) (x : FaultCause) :
    (w.faultLink p x).standing p = (.fault, some x, 0, none) ∧ (w.faultLink p x).events.marked .link p = true := by
  have record : ((w.onLink p (PocketLink.toFault x)).mark .link p).pocketLink p = (w.pocketLink p).toFault x := w.pocketLink_onLink_self p _
  have marked : ((w.onLink p (PocketLink.toFault x)).mark .link p).events.marked .link p = true := EventSet.marked_markPocket_self _ .link p
  rw [Work.faultLink_eq h]
  generalize (w.onLink p (PocketLink.toFault x)).mark .link p = v at record marked
  refine ⟨(State.standing_of_cores (Work.postSafe_cores _ p) p).trans ((v.clearLink_standing p).trans ?_),
    State.marked_of_offLink ((Work.postSafe_offLink _ p).trans (v.clearLink_offLink p)) marked⟩
  rw [record]
  rfl

section
variable (h : (w.pocketLink p).state ≠ .fault) (x : FaultCause)
include h

theorem Work.goFault_goneToFault : (w.goFault p x).GoneToFault p x := by
  obtain ⟨standing, mark⟩ := Work.faultLink_facts h x
  rw [Work.goFault_eq h]
  exact {
    standing := (State.standing_kept p _).loseLink x ((Work.disarmed_standing _ p).trans standing)
    mark := (State.marked_kept .link p).loseLink x (State.marked_of_offLink (Work.disarmed_offLink _ p) mark)
    asks := (State.asksNothing_keptOnRecord p).loseLink x (Work.disarmed_asksNothing _ p) }

theorem Work.goFault_elsewhere : (w.goFault p x).elsewhere p = w.elsewhere p := by
  have faulted : (w.faultLink p x).elsewhere p = w.elsewhere p :=
    (State.elsewhere_of_offLink p ((Work.postSafe_offLink _ p).trans (Work.clearLink_offLink _ p))).trans (w.setLinkState_elsewhere p .fault (some x))
  rw [Work.goFault_eq h]
  exact (State.elsewhere_kept p _).loseLink x ((State.elsewhere_of_offLink p ((w.faultLink p x).disarmed_offLink p)).trans faulted)

end

theorem State.GoneToFault.sendBroadcast {x : FaultCause} (h : w.GoneToFault p x) : w.sendBroadcast.GoneToFault p x where
  standing := (w.sendBroadcast_standing p).trans h.standing
  mark := State.marked_of_offLink w.sendBroadcast_offLink h.mark
  asks := State.asksNothing_of_arb w.sendBroadcast_arb h.asks

theorem State.GoneToFault.finish {x : FaultCause} (h : w.GoneToFault p x) : w.finish.GoneToFault p x where
  standing := (State.standing_keptAtEnd p _).finish h.standing
  mark := by
    rw [Work.finish_events]
    exact h.mark
  asks := (State.asksNothing_kept p).finish h.asks

end

/-! ### A hold, and the end of the command that took it -/

section
variable {w : Work} {p : Pocket} {x : HoldCause}

theorem State.heldBy.of_offLink {s t : State} (view : t.offLink = s.offLink) (arb : t.arb = s.arb) (h : s.heldBy p x) : t.heldBy p x :=
  ⟨(State.holdOf_of_offLink view p).trans h.1, State.marked_of_offLink view h.2.1, (congrArg (fun a : Arbiter => a.requests[p]) arb).trans h.2.2⟩

theorem State.heldBy.rederive (h : w.heldBy p x) : (w.rederive p).heldBy p x := h.of_offLink (w.rederive_offLink p) (w.rederive_arb p)

theorem State.heldBy.sendBroadcast (h : w.heldBy p x) : w.sendBroadcast.heldBy p x := h.of_offLink w.sendBroadcast_offLink w.sendBroadcast_arb

theorem State.heldBy.finish (h : w.heldBy p x) : w.finish.heldBy p x := by
  obtain ⟨hold, mark, request⟩ := h
  refine ⟨(State.holdOf_of_offGrant w.finish_offGrant p).trans hold, ?_, Work.finish_request_none request⟩
  rw [Work.finish_events]
  exact mark

end

/-! ### The reply comes back into a link -/

section
variable {w : Work} {p : Pocket}

theorem Work.comeOnline_of_online (h : (w.pocketLink p).state = .online) : w.comeOnline p = w := by
  unfold Work.comeOnline
  exact if_neg (by simp [h])

/-- The link record of a pocket that comes ONLINE. -/
def PocketLink.toOnline (l : PocketLink) : PocketLink :=
  { l with state := .online, cause := none, safeOwed := false, offlineMs := none, probeOwed := false }

/-- The record of a pocket, its request and slot, its attempts and the rest of the part stand between two states. -/
structure State.StandsFor (s t : State) (p : Pocket) : Prop where
  ctxs : t.ctxs = s.ctxs
  arb : t.arb = s.arb
  part : t.part = s.part
  attempts : (t.pocketLink p).startAttempts = (s.pocketLink p).startAttempts
  elsewhere : t.elsewhere p = s.elsewhere p

theorem State.StandsFor.trans {s t u : State} (a : s.StandsFor t p) (b : t.StandsFor u p) : s.StandsFor u p where
  ctxs := b.ctxs.trans a.ctxs
  arb := b.arb.trans a.arb
  part := b.part.trans a.part
  attempts := b.attempts.trans a.attempts
  elsewhere := b.elsewhere.trans a.elsewhere

/-- A step of the link's own that leaves the arbiter and the standing of the pocket. -/
theorem State.standsFor_of_offLink {s t : State} (view : t.offLink = s.offLink) (arb : t.arb = s.arb) (standing : t.standing p = s.standing p) :
    s.StandsFor t p where
  ctxs := State.ctxs_of_offLink view
  arb := arb
  part := (congrArg State.part view :)
  attempts := (congrArg (fun x : LinkState × Option FaultCause × Nat × Option Nat => x.2.2.1) standing :)
  elsewhere := State.elsewhere_of_offLink p view

/-- A pocket whose record is not held comes ONLINE (R88). -/
theorem Work.comeOnline_unheld {c : Context} (hc : w.ctx p = some c) (unheld : c.fast.hold = .none) : w.toState.StandsFor (w.comeOnline p).toState p := by
  unfold Work.comeOnline
  dsimp only
  split
  · next off =>
    have known : (w.pocketLink p).state ≠ .online := by rcases off with h | h <;> simp [h]
    have moved (v : Work) (f : PocketLink → PocketLink) : (v.mark .link p).onLink p f = (v.onLink p f).mark .link p := rfl
    have into : ((w.setLinkState p .online none).onLink p fun l => { l with offlineMs := none, probeOwed := false }) =
        (w.onLink p PocketLink.toOnline).mark .link p := by
      rw [Work.setLinkState_of_ne known, moved, Work.onLink_onLink]
      rfl
    have came : w.toState.StandsFor ((w.onLink p PocketLink.toOnline).mark .link p).toState p := {
      ctxs := rfl
      arb := rfl
      part := rfl
      attempts := (congrArg PocketLink.startAttempts (w.pocketLink_onLink_self p PocketLink.toOnline) :)
      elsewhere := Work.mark_elsewhere _ .link p }
    have free : ((w.onLink p PocketLink.toOnline).mark .link p).recordIs p
        (fun f => f.hold == .link && (f.phase == .cool || f.phase == .crease || f.status == .pending)) = false := by
      have record : ((w.onLink p PocketLink.toOnline).mark .link p).ctx p = some c := hc
      unfold State.recordIs
      rw [record]
      simp [unheld]
    rw [into]
    generalize (w.onLink p PocketLink.toOnline).mark .link p = v at came free
    split
    · have derived (b : Bool) : v.toState.StandsFor (Work.rederive { v with grant := b } p).toState p :=
        State.standsFor_of_offLink (Work.rederive_offLink _ p) (Work.rederive_arb _ p) (Work.rederive_standing _ p p)
      refine came.trans ?_
      rw [if_neg (by exact Bool.eq_false_iff.1 free)]
      exact derived _
    · exact came
  · exact ⟨rfl, rfl, rfl, rfl, rfl⟩

end

end Sys2Proof.Machine
end
section
/-! SUPPORT. A NOT_READY to a RUN or a HEAT_ON (R99 to R103, R124). -/

namespace Sys2Proof.Machine

/-! ### The end of the command -/

theorem KeptAtEnd.admitHeldBefore {P : State → Prop} (K : KeptAtEnd P) {w : Work} (h : P w.toState) (q : Pocket) : P (w.admitHeldBefore q).toState := by
  unfold Work.admitHeldBefore
  split
  · rename_i m _
    split
    · exact K.convergeWhere (w := { w with room := none }) (fun p => m.has p && decide (p.val < q.val)) h
    · exact K.admitHeld h
  · exact h

/-- The pocket asks for no start, and has slot `x` (R120, R121). -/
theorem State.slotStands_keptAtEnd (p : Pocket) (x : Slot) : KeptAtEnd fun s => s.request p = none ∧ s.slotOf p = some x := by
  have same {s t : State} (e : t.arb = s.arb) (h : s.request p = none ∧ s.slotOf p = some x) : t.request p = none ∧ t.slotOf p = some x := by
    unfold State.request State.slotOf at *
    rw [e]
    exact h
  exact {
    converge w q h := same (w.convergeOne_arb q) h
    probe w q _ h := same (w.postProbe_arb q) h
    serve w x q r _ h := same (w.setWaitList_arb x r) h
    grant w q n hq h := by
      have other : p ≠ q := fun e => by rw [← e, h.1] at hq; cases hq
      have held : w.arb.slots.find? (·.pocket == p) = some x := h.2
      unfold State.request State.slotOf
      rw [Work.granted_arb]
      refine ⟨(upd_other _ _ other).trans h.1, ?_⟩
      rw [List.find?_append, held]
      rfl }

/-- The pocket asks for no start, and has no RUN authority (R97). -/
theorem State.withoutAuthority_keptAtEnd (p : Pocket) : KeptAtEnd fun s => s.request p = none ∧ (s.pocketLink p).runAuthority = false := by
  have same {s t : State} (arb : t.arb = s.arb) (cores : t.cores = s.cores) (h : s.request p = none ∧ (s.pocketLink p).runAuthority = false) :
      t.request p = none ∧ (t.pocketLink p).runAuthority = false :=
    ⟨(congrArg (fun a : Arbiter => a.requests[p]) arb).trans h.1, (PocketLink.runAuthority_of_core (State.core_of_cores cores p)).trans h.2⟩
  exact {
    converge w q h := same (w.convergeOne_arb q) (w.convergeOne_cores q) h
    probe w q _ h := same (w.postProbe_arb q) (w.postProbe_cores q) h
    serve w x q r _ h := by cases x <;> exact h
    grant w q n hq h := by
      have other : p ≠ q := fun e => by rw [← e, h.1] at hq; cases hq
      rw [Work.granted_pocketLink_other _ _ _ other]
      refine ⟨?_, h.2⟩
      unfold State.request
      rw [Work.granted_arb]
      exact (upd_other _ _ other).trans h.1 }

/-- A motor that is not desired has no RUN authority once the desired state has been derived again (R97). -/
theorem Work.rederive_runAuthority {w : Work} {p : Pocket} (h : w.motorDesired p = false) : ((w.rederive p).pocketLink p).runAuthority = false := by
  have idle : (w.converge p).motorDesired p = false := (State.motorDesired_of_ctxs (State.ctxs_of_offLink (w.converge_offLink p)) p).trans h
  unfold Work.rederive
  dsimp only
  rw [if_neg (by simp [idle])]
  exact Work.endAuthority_runAuthority _ p

theorem State.motorDesired_of_holdOf {s : State} {p : Pocket} {x : HoldCause} (h : s.holdOf p = some x) (hx : x ≠ .none) : s.motorDesired p = false := by
  unfold State.holdOf at h
  unfold State.motorDesired
  cases hc : s.ctx p with
  | none => rfl
  | some c =>
    have hold : c.fast.hold = x := by simpa [hc] using h
    simp [hold, hx]

/-! ### The replies -/

section
variable {s : State} {p : Pocket} {e : Entry} (h : s.exchanging p e)
include h

theorem exec_notReadyRetry (why : RetryReason) (kind : e.kind = .run ∨ e.kind = .heatOn) :
    exec (.notReadyRetry p why) s = .next ((Work.begin s).takeRetry p e).sendBroadcast.finish := by
  have e' : exec (.notReadyRetry p why) s = execNotReadyRetry p why s := rfl
  rw [e', execNotReadyRetry]
  refine (onExchange_exchange h (f := fun k => k == .run || k == .heatOn) (by simpa using kind) fun e w => w.takeRetry p e).trans ?_
  exact onExchange_on h.1 _

theorem exec_notReadyDoorOpen (kind : e.kind = .run ∨ e.kind = .heatOn) :
    exec (.notReadyDoorOpen p) s = .next ((Work.begin s).takeDoorOpen p e).sendBroadcast.finish := by
  have e' : exec (.notReadyDoorOpen p) s = execNotReadyDoorOpen p s := rfl
  rw [e', execNotReadyDoorOpen]
  refine (onExchange_exchange h (f := fun k => k == .run || k == .heatOn) (by simpa using kind) fun e w => w.takeDoorOpen p e).trans ?_
  exact onExchange_on h.1 _

omit h in
theorem State.linkActs_of_active {t : State} (ha : t.part = .active) : t.linkActs = true := by simp [State.linkActs, ha]

/-- A retry comes back into the link of an ONLINE pocket. -/
theorem Work.takeRetry_online (online : (s.pocketLink p).state = .online) :
    (Work.begin s).takeRetry p e = if e.kind = .run then (Work.begin s).runRefused p e else (Work.begin s).heatOnRefused p e := by
  unfold Work.takeRetry
  rw [if_pos (by exact State.linkActs_of_active h.2.1), Work.comeOnline_of_online (w := Work.begin s) online]

omit h in
/-- An entry that waits for its retry leaves everything else as it stands (R99). -/
theorem Work.waitRetry_finish (quiet : s.noBroadcast) (n : Nat) : ((Work.begin s).waitRetry n).sendBroadcast.finish =
    s.flightChanged 0 fun x => { x with attempts := n, silent := 0, state := .waitRetry 250 } := by
  rw [Work.sendBroadcast_of_noBroadcast, Work.finish_of_quiet _ rfl]
  · rfl
  · intro x hx
    obtain ⟨y, hy, rfl⟩ := List.mem_map.1 hx
    have unicast := quiet y hy
    split <;> exact unicast

end

/-! ### The door refuses -/

section
variable {w : Work} {p : Pocket}

/-- A RUN that the door refuses leaves its slot marked, and the record, the attempts and the rest of the part as they stand (R103,
R124). -/
theorem Work.doorRefusesRun_stands (w : Work) (p : Pocket) :
    (w.doorRefusesRun p).ctxs = w.ctxs ∧ (w.doorRefusesRun p).part = w.part ∧
      ((w.doorRefusesRun p).pocketLink p).startAttempts = (w.pocketLink p).startAttempts ∧ (w.doorRefusesRun p).elsewhere p = w.elsewhere p ∧
      ∀ x, w.slotOf p = some x → x.stage = .awaitAck → (w.doorRefusesRun p).slotOf p = some { x with doorRefused := true, carried := none } := by
  have view := w.endAuthority_offLink p
  have standing := w.endAuthority_standing p p
  have arb := w.endAuthority_arb p
  unfold Work.doorRefusesRun
  generalize w.endAuthority p = v at *
  refine ⟨State.ctxs_of_offLink view, (congrArg State.part view :), (congrArg (fun x : LinkState × Option FaultCause × Nat × Option Nat => x.2.2.1) standing :),
    State.elsewhere_of_offLink p view, fun x hx stage => ?_⟩
  have slot : v.slotOf p = some x := (congrArg (fun a : Arbiter => a.slots.find? fun y : Slot => y.pocket == p) arb).trans hx
  rw [Work.onSlot_slotOf v p (by intro y; split <;> rfl), slot]
  exact congrArg some (if_pos stage)

/-- A record that takes hold DOOR: the attempts of its pocket, the rest of the part and a slot that carries nothing stand, and the
RUN authority has ended (R97, R103). -/
theorem Work.doorHolds {c : Context} (hc : w.ctx p = some c) (phase : c.fast.phase = .heat ∨ c.fast.phase = .cool) (unheld : c.fast.hold = .none) :
    ((w.takeHold p .door).rederive p).heldBy p .door ∧ (((w.takeHold p .door).rederive p).pocketLink p).runAuthority = false ∧
      ((w.takeHold p .door).rederive p).standing p = w.standing p ∧ ((w.takeHold p .door).rederive p).elsewhere p = w.elsewhere p ∧
      ∀ x, w.slotOf p = some x → x.carried = none → ((w.takeHold p .door).rederive p).slotOf p = some x := by
  have held : (w.takeHold p .door).heldBy p .door := by
    refine Work.takeHold_holds hc ?_ ?_ (.inl (by decide))
    · rcases phase with h | h <;> simp [h, HoldCause.appliesIn]
    · simp [unheld, HoldCause.rank]
  have kept {P : State → Prop} (K : KeptOnRecord P p) (h : P w.toState) : P ((w.takeHold p .door).rederive p).toState :=
    K.derive _ (K.takeHold .door h)
  refine ⟨held.rederive, Work.rederive_runAuthority (State.motorDesired_of_holdOf held.1 (by decide)), kept (State.standing_kept p _) rfl,
    kept (State.elsewhere_kept p _) rfl, fun x slot carried => kept (State.slot_kept p ?_) slot⟩
  intro y hy
  obtain rfl := Option.some.inj hy
  exact carried

theorem Work.takeDoorOpen_offRecord (w : Work) (p : Pocket) (e : Entry) : (w.takeDoorOpen p e).offRecord p = w.offRecord p := by
  unfold Work.takeDoorOpen
  dsimp only
  repeat' split
  all_goals simp

/-- What the door's refusal does before the record takes its hold (R88, R103). -/
theorem Work.takeDoorOpen_eq {s : State} {e : Entry} {c : Context} (h : s.exchanging p e) (hc : s.ctx p = some c) (unheld : c.fast.hold = .none) :
    ∃ v : Work, (Work.begin s).takeDoorOpen p e = (v.takeHold p .door).rederive p ∧
      v.ctxs = s.ctxs ∧ (v.pocketLink p).startAttempts = (s.pocketLink p).startAttempts ∧ v.elsewhere p = s.elsewhere p ∧
      (e.kind = .run → ∀ x, s.slotOf p = some x → x.stage = .awaitAck → v.slotOf p = some { x with doorRefused := true, carried := none }) := by
  have before : s.StandsFor ((Work.begin s).endExchange.admitHeldBefore p).toState p :=
    State.standsFor_of_offLink ((Work.admitHeldBefore_offLink _ p).trans (Work.endExchange_offLink _))
      ((Work.admitHeldBefore_arb _ p).trans (Work.endExchange_arb _))
      (((State.standing_keptAtEnd p _).admitHeldBefore rfl p).trans (Work.endExchange_standing _ p))
  have reached : ((Work.begin s).endExchange.admitHeldBefore p).ctx p = some c :=
    (congrArg (fun l : Vector (Option Context) 32 => l[p]) before.ctxs).trans hc
  have stands := before.trans (Work.comeOnline_unheld reached unheld)
  have acts : (Work.begin s).endExchange.linkActs = true :=
    State.linkActs_of_active (Eq.trans (congrArg State.part (Work.begin s).endExchange_offLink :) h.2.1)
  unfold Work.takeDoorOpen
  dsimp only
  rw [if_pos acts]
  generalize ((Work.begin s).endExchange.admitHeldBefore p).comeOnline p = v at stands
  obtain ⟨ctxs, part, attempts, elsewhere, slot⟩ := v.doorRefusesRun_stands p
  by_cases run : e.kind = .run
  · refine ⟨v.doorRefusesRun p, ?_, ctxs.trans stands.ctxs, attempts.trans stands.attempts, elsewhere.trans stands.elsewhere, fun _ x hx => ?_⟩
    · rw [if_pos run]
      exact if_pos (part.trans (stands.part.trans h.2.1))
    · exact slot x ((congrArg (fun a : Arbiter => a.slots.find? fun y : Slot => y.pocket == p) stands.arb).trans hx)
  · refine ⟨v, ?_, stands.ctxs, stands.attempts, stands.elsewhere, fun k => absurd k run⟩
    rw [if_neg run]
    exact if_pos (stands.part.trans h.2.1)

/-! ### The retry limit, and hold DOOR -/

/-- A RUN refused at its retry limit takes its pocket to FAULT (R100). -/
theorem Work.runRefused_goneToFault {s : State} {e : Entry} (online : (s.pocketLink p).state = .online)
    (many : s.setting 3 ≤ (s.pocketLink p).startAttempts + 1) :
    ((Work.begin s).runRefused p e).sendBroadcast.finish.sameBut s p ∧
      ((Work.begin s).runRefused p e).sendBroadcast.finish.GoneToFault p .retryExhausted := by
  have faults : (Work.begin s).runRefused p e =
      ((Work.begin s).onLink p fun l => { l with startAttempts := l.startAttempts + 1 }).endExchange.goFault p .retryExhausted := by
    unfold Work.runRefused
    refine if_pos ?_
    rw [Work.pocketLink_onLink_self]
    exact many
  have record : ((Work.begin s).runRefused p e).offRecord p = s.offRecord p := (Work.begin s).runRefused_offRecord p e
  have known : (((Work.begin s).onLink p fun l => { l with startAttempts := l.startAttempts + 1 }).endExchange.pocketLink p).state ≠ .fault := by
    rw [State.state_of_standing (Work.endExchange_standing _ p), Work.pocketLink_onLink_self]
    exact fun fault => absurd (online.symm.trans fault) (by decide)
  have view : ((Work.begin s).onLink p fun l => { l with startAttempts := l.startAttempts + 1 }).endExchange.offLink = s.offLink :=
    Work.endExchange_offLink _
  rw [faults] at record ⊢
  exact ⟨Work.endOfExchange_sameBut record ((Work.goFault_elsewhere known .retryExhausted).trans (State.elsewhere_of_offLink p view)),
    (Work.goFault_goneToFault known .retryExhausted).sendBroadcast.finish⟩

/-- A HEAT_ON refused at its retry limit gives its record hold HEAT_FAULT (R101). -/
theorem Work.heatOnRefused_held {s : State} {e : Entry} {c : Context} (ha : s.part = .active) (many : s.setting 3 ≤ e.attempts + 1)
    (hc : s.ctx p = some c) (phase : c.fast.phase = .heat) (unheld : c.fast.hold = .none) :
    ((Work.begin s).heatOnRefused p e).sendBroadcast.finish.sameBut s p ∧
      ((Work.begin s).heatOnRefused p e).sendBroadcast.finish.heldBy p .heatFault := by
  have record : ((Work.begin s).heatOnRefused p e).offRecord p = s.offRecord p := (Work.begin s).heatOnRefused_offRecord p e
  have view : ((Work.begin s).endExchange.admitHeldBefore p).offLink = s.offLink := (Work.admitHeldBefore_offLink _ p).trans (Work.endExchange_offLink _)
  have holds : (Work.begin s).heatOnRefused p e =
      ((((Work.begin s).endExchange.admitHeldBefore p).recordFault p .heatFault).takeHold p .heatFault).rederive p := by
    unfold Work.heatOnRefused
    rw [if_pos (by exact many)]
    exact if_pos (Eq.trans (congrArg State.part view :) ha)
  have reached : ((Work.begin s).endExchange.admitHeldBefore p).ctx p = some c :=
    (congrArg (fun l : Vector (Option Context) 32 => l[p]) (State.ctxs_of_offLink view)).trans hc
  have rest := State.elsewhere_of_offLink p view
  rw [holds] at record ⊢
  generalize (Work.begin s).endExchange.admitHeldBefore p = v at *
  obtain ⟨d, hd, phase', -, hold'⟩ := Work.recordFault_ctx reached .heatFault
  have held : ((v.recordFault p .heatFault).takeHold p .heatFault).heldBy p .heatFault := by
    refine Work.takeHold_holds hd ?_ ?_ (.inl (by decide))
    · rw [phase', phase]
      rfl
    · rw [hold', unheld]
      decide
  have elsewhere := State.elsewhere_kept p (s.elsewhere p)
  exact ⟨Work.endOfExchange_sameBut record (elsewhere.derive _ (elsewhere.takeHold .heatFault (elsewhere.recordFault .heatFault rest))),
    held.rederive.sendBroadcast.finish⟩

/-- What stands of a pocket that takes hold DOOR stands once the command has ended: no request, and so no grant, brings its RUN
authority back or changes its slot (R97, R120). -/
theorem State.heldBy.finish_stands {w : Work} {x : HoldCause} (held : w.heldBy p x) :
    (w.sendBroadcast.finish.pocketLink p).startAttempts = (w.pocketLink p).startAttempts ∧
      ((w.pocketLink p).runAuthority = false → (w.sendBroadcast.finish.pocketLink p).runAuthority = false) ∧
      ∀ y, w.slotOf p = some y → w.sendBroadcast.finish.slotOf p = some y := by
  obtain ⟨b, n, sent⟩ := w.sendBroadcast_pocketLink p
  have standing := (State.standing_keptAtEnd p _).finish (w.sendBroadcast_standing p)
  have request := held.sendBroadcast.2.2
  refine ⟨(congrArg (fun x : LinkState × Option FaultCause × Nat × Option Nat => x.2.2.1) standing :), fun free => ?_, fun y slot => ?_⟩
  · exact ((State.withoutAuthority_keptAtEnd p).finish ⟨request, by rw [sent]; exact free⟩).2
  · exact ((State.slotStands_keptAtEnd p y).finish
      ⟨request, (congrArg (fun a : Arbiter => a.slots.find? fun y : Slot => y.pocket == p) w.sendBroadcast_arb).trans slot⟩).2

end

/-- Settles O42: a retry below its limit changes its entry alone, and a pocket in FAULT or held asks for
nothing at the end of its command. -/
theorem refusalsAreActedOn : Obligations.RefusalsAreActedOn := by
  unfold Obligations.RefusalsAreActedOn
  refine ⟨fun p e why s h online => ⟨fun run few quiet => ?_, fun run many => ?_, fun heatOn few quiet => ?_, fun heatOn many c hc phase unheld => ?_⟩,
    fun p e c s h kind hc phase unheld => ?_⟩
  · rw [exec_notReadyRetry h why (.inl run), Work.takeRetry_online h online, if_pos run]
    have waits : (Work.begin s).runRefused p e =
        ((Work.begin s).onLink p fun l => { l with startAttempts := l.startAttempts + 1 }).waitRetry e.attempts := by
      unfold Work.runRefused
      refine if_neg ?_
      rw [Work.pocketLink_onLink_self]
      exact Nat.not_le.2 few
    rw [waits]
    exact congrArg Host.Outcome.next (Work.waitRetry_finish
      (s := s.withLink p { s.pocketLink p with startAttempts := (s.pocketLink p).startAttempts + 1 }) quiet e.attempts)
  · rw [exec_notReadyRetry h why (.inl run), Work.takeRetry_online h online, if_pos run]
    obtain ⟨same, off⟩ := Work.runRefused_goneToFault (e := e) online many
    exact ⟨_, rfl, same, congrArg Prod.fst off.standing, congrArg (fun x => x.2.1) off.standing, off.asks.1, off.asks.2,
      congrArg (fun x => x.2.2.1) off.standing, off.mark⟩
  · rw [exec_notReadyRetry h why (.inr heatOn), Work.takeRetry_online h online, if_neg (by simp [heatOn])]
    have waits : (Work.begin s).heatOnRefused p e = (Work.begin s).waitRetry (e.attempts + 1) := if_neg (Nat.not_le.2 few)
    rw [waits, Work.waitRetry_finish quiet]
  · rw [exec_notReadyRetry h why (.inr heatOn), Work.takeRetry_online h online, if_neg (by simp [heatOn])]
    obtain ⟨same, hold, mark, request⟩ := Work.heatOnRefused_held h.2.1 many hc phase unheld
    exact ⟨_, rfl, same, hold, request, mark⟩
  · rw [exec_notReadyDoorOpen h kind]
    have record : ((Work.begin s).takeDoorOpen p e).offRecord p = s.offRecord p := (Work.begin s).takeDoorOpen_offRecord p e
    obtain ⟨v, door, ctxs, attempts, elsewhere, slot⟩ := Work.takeDoorOpen_eq h hc unheld
    have reached : v.ctx p = some c := (congrArg (fun l : Vector (Option Context) 32 => l[p]) ctxs).trans hc
    obtain ⟨held, authority, standing, elsewhere', slot'⟩ := Work.doorHolds reached phase unheld
    rw [door] at record ⊢
    generalize (v.takeHold p .door).rederive p = w at *
    have counted : (w.pocketLink p).startAttempts = (v.pocketLink p).startAttempts := congrArg (fun x => x.2.2.1) standing
    obtain ⟨tried, unarmed, stays⟩ := held.finish_stands
    obtain ⟨hold, mark, request⟩ := held.sendBroadcast.finish
    exact ⟨_, rfl, Work.endOfExchange_sameBut record (elsewhere'.trans elsewhere), hold, mark, request, tried.trans (counted.trans attempts),
      unarmed authority, fun run x hx stage => stays _ (slot' _ (slot run x hx stage) rfl)⟩

end Sys2Proof.Machine
end
